-- ==== Sys2Proof/Word.lean ====
section
/-! DEFINITION. The block's widths (spec/00_scope.md R9 "Fixed widths", R13; spec/10_state.md R102):
register data 16 bits, register address 8 bits, buffer entries and the LRC 8 bits, buffer indices 16 bits. -/

namespace Sys2Proof

/-- Register data, command words, CRC accumulators and buffer indices: 16 bits. -/
abbrev Word := BitVec 16

/-- Buffer entries, operand bytes and the LRC accumulator: 8 bits. -/
abbrev Byte := BitVec 8

/-- Register port addresses: 8 bits. -/
abbrev RegAddr := BitVec 8

/-- `zext_16(d)` (spec/00_scope.md R13, spec/30_encoding.md R302). -/
abbrev zext16 (d : Byte) : Word := d.setWidth 16

/-- `sat16(n) = min(n, 0xFFFF)` (spec/00_scope.md R13). -/
abbrev sat16 (n : Nat) : Word := BitVec.ofNat 16 (min n 0xFFFF)

end Sys2Proof
end

