-- ==== Sys2Proof/Syntax.lean ====
section
/-! DEFINITION. The command words as syntax (spec/30_encoding.md R303), one constructor per row of
spec/opcode_table.json, and the assembler's statements (R308, R309). -/

namespace Sys2Proof

/-- The twelve commands of spec/30_encoding.md R303. The I form carries its byte operand d = CMD[7:0] (R301). -/
inductive Instr where
  | nop
  | crcaInit
  | crcaByte (d : Byte)
  | crccInit
  | crccByte (d : Byte)
  | lrcInit
  | lrcByte (d : Byte)
  | bufClear
  | bufPush (d : Byte)
  | classify
  | frScan
  | d0Cycle
deriving DecidableEq, Repr

/-- The operand forms of spec/30_encoding.md R301: Z (no operand, IMM8 must be 0) and I (byte operand). -/
inductive Form where
  | z
  | i
deriving DecidableEq, Repr

/-- The operand form of each command (spec/30_encoding.md R303). -/
def Instr.form : Instr → Form
  | .nop => .z
  | .crcaInit => .z
  | .crcaByte _ => .i
  | .crccInit => .z
  | .crccByte _ => .i
  | .lrcInit => .z
  | .lrcByte _ => .i
  | .bufClear => .z
  | .bufPush _ => .i
  | .classify => .z
  | .frScan => .z
  | .d0Cycle => .z

/-- The register names of spec/10_state.md R102. -/
inductive RegName where
  | cmd | status | config | budget | crca | crcc | lrc | lrcres | buflen | failcnt | cls | chk | d0res | bcc | idlen
deriving DecidableEq, Repr

/-- The assembler's statements (spec/30_encoding.md R308) and pseudo-instructions (R309), as syntax trees with numbers
as written. A string is the list of its ASCII codes (log 18). -/
inductive Statement where
  | nop
  | crcaInit
  | crcaByte (d : Nat)
  | crccInit
  | crccByte (d : Nat)
  | lrcInit
  | lrcByte (d : Nat)
  | bufClear
  | bufPush (d : Nat)
  | classify
  | frScan
  | d0Cycle
  | wr (reg : RegName) (v : Nat)
  | rd (reg : RegName)
  | rdb (i : Nat)
  | rdi (i : Nat)
  | cmd (w : Nat)
  | crcaStr (s : List Nat)
  | crccStr (s : List Nat)
  | lrcStr (s : List Nat)
  | bufStr (s : List Nat)
  | crcaOf (s : List Nat)
  | crccOf (s : List Nat)
  | bufLoad (s : List Nat)
  | waitIdle
deriving DecidableEq, Repr

end Sys2Proof
end

