-- ==== Sys2Proof/WellFormed.lean ====
section
/-! DEFINITION. Well-formedness. Every command of `Instr` is well formed by its type: the I form's operand is a byte and
every byte is legal (spec/30_encoding.md R301). The assembler's numbers are checked here: "The operand d must be in
0..255; the assembler rejects any other value" (R308), and the bus widths of R307. -/

namespace Sys2Proof

/-- Every value of an I-form operand byte is legal and a Z form has none (spec/30_encoding.md R301). -/
def Instr.wellFormed : Instr → Bool
  | .nop => true
  | .crcaInit => true
  | .crcaByte _ => true
  | .crccInit => true
  | .crccByte _ => true
  | .lrcInit => true
  | .lrcByte _ => true
  | .bufClear => true
  | .bufPush _ => true
  | .classify => true
  | .frScan => true
  | .d0Cycle => true

/-- A number that fits a byte. -/
def fitsByte (n : Nat) : Bool := decide (n ≤ 0xFF)

/-- A number that fits 16 bits. -/
def fitsWord (n : Nat) : Bool := decide (n ≤ 0xFFFF)

/-- What the assembler accepts (spec/30_encoding.md R308, R309; bus widths of R307). -/
def Statement.wellFormed : Statement → Bool
  | .nop => true
  | .crcaInit => true
  | .crcaByte d => fitsByte d
  | .crccInit => true
  | .crccByte d => fitsByte d
  | .lrcInit => true
  | .lrcByte d => fitsByte d
  | .bufClear => true
  | .bufPush d => fitsByte d
  | .classify => true
  | .frScan => true
  | .d0Cycle => true
  | .wr _ v => fitsWord v
  | .rd _ => true
  | .rdb i => fitsWord i
  | .rdi i => fitsWord i
  | .cmd w => fitsWord w
  | .crcaStr s => s.all fitsByte
  | .crccStr s => s.all fitsByte
  | .lrcStr s => s.all fitsByte
  | .bufStr s => s.all fitsByte
  | .crcaOf s => s.all fitsByte
  | .crccOf s => s.all fitsByte
  | .bufLoad s => s.all fitsByte
  | .waitIdle => true

end Sys2Proof
end

