-- ==== Sys2Proof/Decode.lean ====
section
/-! DEFINITION. Decoding a command word (spec/30_encoding.md R300 to R305), total on all 65536 words, and after it the
encoder, written from the map of R303. A command is exactly one 16-bit word (R306), carried whole on the 16-bit data
port, so no byte order enters (spec/20_memory.md R204). -/

namespace Sys2Proof

/-- OPC = w[15:8] (spec/30_encoding.md R300). -/
def opcode (w : Word) : Byte := w.extractLsb' 8 8

/-- IMM8 = w[7:0] (spec/30_encoding.md R300). -/
def imm8 (w : Word) : Byte := w.extractLsb' 0 8

/-- What decoding a word gives: a command, or why the word is illegal (spec/30_encoding.md R305). -/
inductive Decoded where
  | instr (i : Instr)
  /-- OPC in 0x0C..0xFF. -/
  | reservedOpcode (opc : Byte)
  /-- A Z-form opcode with IMM8 ≠ 0. -/
  | operandNotZero (opc imm : Byte)
deriving DecidableEq, Repr

/-- The Z form: IMM8 must be 0x00 (spec/30_encoding.md R301). -/
def zForm (opc d : Byte) (i : Instr) : Decoded :=
  if d = 0 then .instr i else .operandNotZero opc d

/-- Decoding (spec/30_encoding.md R304), one row of R303 a line. -/
def decodeCommand (w : Word) : Decoded :=
  let opc := opcode w
  let d := imm8 w
  match opc.toNat with
  | 0x00 => zForm opc d .nop
  | 0x01 => zForm opc d .crcaInit
  | 0x02 => .instr (.crcaByte d)
  | 0x03 => zForm opc d .crccInit
  | 0x04 => .instr (.crccByte d)
  | 0x05 => zForm opc d .lrcInit
  | 0x06 => .instr (.lrcByte d)
  | 0x07 => zForm opc d .bufClear
  | 0x08 => .instr (.bufPush d)
  | 0x09 => zForm opc d .classify
  | 0x0A => zForm opc d .frScan
  | 0x0B => zForm opc d .d0Cycle
  | _ => .reservedOpcode opc

/-- A word from its two fields, OPC<<8 | IMM8 (spec/30_encoding.md R300). -/
def commandWord (opc d : Byte) : Word := (zext16 opc <<< 8) ||| zext16 d

/-- The encoder: the words listed under the map of spec/30_encoding.md R303. -/
def encode : Instr → Word
  | .nop => commandWord 0x00 0x00
  | .crcaInit => commandWord 0x01 0x00
  | .crcaByte d => commandWord 0x02 d
  | .crccInit => commandWord 0x03 0x00
  | .crccByte d => commandWord 0x04 d
  | .lrcInit => commandWord 0x05 0x00
  | .lrcByte d => commandWord 0x06 d
  | .bufClear => commandWord 0x07 0x00
  | .bufPush d => commandWord 0x08 d
  | .classify => commandWord 0x09 0x00
  | .frScan => commandWord 0x0A 0x00
  | .d0Cycle => commandWord 0x0B 0x00

/-- The instruction the decoder reads from an opcode-table word of `nbits` bits (every bit above them 0). -/
def decodeTableWord (nbits w : Nat) : Option Instr :=
  match decodeCommand (BitVec.ofNat 16 (w % 2 ^ nbits)) with
  | .instr i => some i
  | .reservedOpcode _ => none
  | .operandNotZero _ _ => none

end Sys2Proof
end

