-- ==== Sys2Proof/Config.lean ====
section
/-! DEFINITION. The implementation parameters of spec/00_scope.md R9 and the free value the spec leaves open.
The configuration is not state: it is an argument of the step relation (spec/10_state.md R100). The fixed type of
`step` has no argument for it, so the state carries it in a field that no step changes (log 1). -/

namespace Sys2Proof.Config

/-- The parameters of spec/00_scope.md R9 that the model takes as an argument. The byte sequences (SIGNON_SEQ, ACK_SEQ,
SIGNOFF_SEQ) and BAUD are fixed to R9's values in Sys2Proof/Machine/Sequences.lean (log 9). -/
structure Params where
  /-- CAPACITY, telegram buffer size in bytes (OPEN, 8..65535). -/
  capacity : Nat
  /-- IDENT_CAP, identification buffer size in bytes (OPEN, 8..65535). -/
  identCap : Nat
  /-- WAKE_COUNT, number of 0x00 wake-up bytes. -/
  wakeCount : Nat
  /-- T_SETTLE_MS, settle wait after the wake-up bytes. -/
  tSettleMs : Nat
  /-- T_ACK_MS, wait between the ACK and the local baud switch. -/
  tAckMs : Nat
  /-- BANG_BUDGET, bytes after `!` within which ETX must arrive. -/
  bangBudget : Nat
  /-- LRC_STX_INCLUDED, whether STX enters the LRC. -/
  lrcStxIncluded : Bool
  /-- CCITT_XOROUT, final XOR of the CRC16/CCITT variant. -/
  ccittXorout : Word
deriving DecidableEq, Repr

/-- The ranges the spec gives: 8 <= CAPACITY, IDENT_CAP <= 65535 (R9); a `!` budget and a wake-up count of at least one
byte (DEDUCED, log 16: R122's range 0..BANG_BUDGET for BANG_CNT, and R602's first wake-up byte SEQ_K = 1). -/
def Params.wf (c : Params) : Bool :=
  decide (8 ≤ c.capacity) && decide (c.capacity ≤ 65535) && decide (8 ≤ c.identCap) && decide (c.identCap ≤ 65535) &&
    decide (1 ≤ c.wakeCount) && decide (1 ≤ c.bangBudget)

/-- R9's values for this hardware. CAPACITY and IDENT_CAP are OPEN: 2048 and 128 are the values of the spec's examples
(DESIGN CHOICE, log 1, unsafe for a statement that rests on them). -/
def thisHardware : Params where
  capacity := 2048
  identCap := 128
  wakeCount := 65
  tSettleMs := 2700
  tAckMs := 300
  bangBudget := 3
  lrcStxIncluded := true
  ccittXorout := 0x0000

/-- T_CHAR_S, the inter-character read timeout in seconds. The transport applies it; no rule of the block reads it
(spec/00_scope.md R10). -/
def tCharS : Nat := 15

/-- The free value of spec/20_memory.md R202: the byte the n-th draw of an undefined buffer byte gives (log 5). -/
opaque freeByte : Nat → Byte

end Sys2Proof.Config
end

