-- ==== Sys2Proof/Machine/State.lean ====
section
/-! DEFINITION. The state of one block (spec/10_state.md R100), the transport port's requests and responses (R140), the
moves of the agents (R142), the reasons a step can stop, and the state after reset (spec/70_reset_and_hazards.md R801). -/

namespace Sys2Proof.Machine

/-- The result codes of spec/60_exceptions.md R700. Codes 11 to 15 are never written, so they have no constructor. -/
inductive ResultCode where
  | none | ok | lrcMismatch | timeout | budgetExceeded | ioError | invalidIdent | noIdent | protocolUnsupported
  | bufferOverflow | illegalCmd
deriving DecidableEq, Repr

/-- STATUS (spec/10_state.md R104), its four fields; the reserved bits read 0 and hold nothing. -/
structure Status where
  busy : Bool
  rej  : Bool
  ovf  : Bool
  res  : ResultCode
deriving DecidableEq, Repr

/-- The tail class of CLASS (spec/10_state.md R113). -/
inductive TailClass where
  | none | old | new | malformed
deriving DecidableEq, Repr

/-- D0RES.MODE (spec/10_state.md R115). D is never produced (spec/43_d0_engine.md R620); codes 6 and 7 do not exist. -/
inductive Mode where
  | none | a | b | c | d | e
deriving DecidableEq, Repr

/-- D0RES.VERDICT (spec/10_state.md R115); code 3 is never produced. -/
inductive Verdict where
  | notApplicable | ok | failed
deriving DecidableEq, Repr

/-- D0RES (spec/10_state.md R115), its fields. -/
structure HandshakeResult where
  mode     : Mode
  /-- Rate code 0..6, or 7 for none. -/
  baud     : BitVec 3
  verdict  : Verdict
  stxSeen  : Bool
  etxSeen  : Bool
  bangSeen : Bool
  obtained : Bool
  bccValid : Bool
deriving DecidableEq, Repr

/-- BCC (spec/10_state.md R116): RX_BCC in bits [7:0], LRC_CALC in bits [15:8]. -/
structure BlockCheck where
  rxBcc   : Byte
  lrcCalc : Byte
deriving DecidableEq, Repr

/-- ENG (spec/10_state.md R120): which engine runs. -/
inductive Engine where
  | idle | fr | d0
deriving DecidableEq, Repr

/-- FR_PHASE (spec/10_state.md R121). -/
inductive FrPhase where
  | hunt | body | tail
deriving DecidableEq, Repr

/-- D0_PHASE (spec/10_state.md R122; the phase table is spec/43_d0_engine.md R602). -/
inductive D0Phase where
  | setbaud0 | wakeTx | settle | flush | signonTx | ident | baudB | ackTx | ackWait | baudC | tel | bccRd | signoffTx
  | drain
deriving DecidableEq, Repr

/-- The transport requests of spec/10_state.md R140. -/
inductive Request where
  | rx
  | tx (b : Byte)
  | setbaud (k : BitVec 3)
  | flush
  | drain
  | wait (ms : Nat)
deriving DecidableEq, Repr

/-- The transport's and the timer's responses (spec/10_state.md R140). -/
inductive Response where
  | byte (b : Byte)
  | timeout
  | ioerr
  | ok
  | done
deriving DecidableEq, Repr

/-- The two buffer spaces a host byte read names (spec/30_encoding.md R307). -/
inductive Space where
  | tbuf | ibuf
deriving DecidableEq, Repr

/-- The steps the agents take (spec/10_state.md R142). -/
inductive Move where
  | hostWrite (addr : RegAddr) (v : Word)
  | hostRead (addr : RegAddr)
  | hostBufRead (space : Space) (i : Word)
  | respond (a : Response)
  | reset
deriving DecidableEq, Repr

/-- What a host read delivers: a register's word or a buffer byte. -/
inductive ReadData where
  | word (v : Word)
  | byte (b : Byte)
deriving DecidableEq, Repr

/-- A byte array as its listed (index, byte) cells: indices strictly rising, no cell equal to what an unlisted index
reads as (`Memory.wf` in Sys2Proof/Machine/Ops.lean). -/
abbrev Memory := List Host.Cell

/-- The state of one block instance. -/
structure State where
  /-- The implementation parameters (spec/00_scope.md R9); the model's own field, no step changes it (log 1). -/
  cfg       : Config.Params
  /-- STATUS, spec/10_state.md R104. -/
  status    : Status
  /-- CONFIG.WAKE_EN, R105. -/
  wakeEn    : Bool
  /-- BUDGET, R106. -/
  budget    : Word
  /-- CRCA, R107. -/
  crca      : Word
  /-- CRCC without CCITT_XOROUT, R108. -/
  crcc      : Word
  /-- LRC, R109. -/
  lrc       : Byte
  /-- BUFLEN, R111. -/
  bufLen    : Word
  /-- FAILCNT, R112. -/
  failCnt   : Word
  /-- CLASS, R113. -/
  cls       : TailClass
  /-- CHK, R114. -/
  chk       : Word
  /-- D0RES, R115. -/
  d0res     : HandshakeResult
  /-- BCC, R116. -/
  bcc       : BlockCheck
  /-- IDLEN, R117. -/
  idLen     : Word
  /-- ENG, R120. -/
  eng       : Engine
  /-- FR_PHASE, R121. -/
  frPhase   : FrPhase
  /-- TAIL_N, R121. -/
  tailN     : Nat
  /-- D0_PHASE, R122. -/
  d0Phase   : D0Phase
  /-- SEQ_K, R122. -/
  seqK      : Nat
  /-- BANG_CNT, R122. -/
  bangCnt   : Nat
  /-- RATE_CODE, R122. -/
  rateCode  : BitVec 3
  /-- ZCHAR, R122. -/
  zchar     : Byte
  /-- TBUF, R123. -/
  tbuf      : Memory
  /-- IBUF, R123. -/
  ibuf      : Memory
  /-- PENDING, R125. -/
  pending   : Option Request
  /-- H, the request history, oldest request first, R141 and R145. -/
  history   : List Request
  /-- The moves the agents make next; the model's own field (log 2). -/
  inbox     : List Move
  /-- What the last host read delivered; the model's own field (log 4). -/
  lastRead  : Option ReadData
  /-- How many undefined buffer bytes have been drawn; the model's own field (log 5). -/
  drawCount : Nat
deriving DecidableEq, Repr

/-- No behaviour of the block is a fault and the block has no trap (spec/93_implementation_defined.md part 1,
spec/60_exceptions.md R702), so there is no fault to name. -/
inductive Fault where
deriving DecidableEq, Repr

/-- Why a step is refused. -/
inductive Refusal where
  /-- Raised by an arm of `exec` whose instruction has no meaning yet; safe. No arm raises it now. -/
  | notModelled (mnemonic : String)
  /-- Raised by a Respond move that is not enabled: nothing is pending, or the response is none of those
  spec/10_state.md R140 admits for the pending request ("has no move: the environment cannot give it"; log 3). Safe: the
  move does not exist. Also raised where an engine that no run leaves in such a phase gets a response its phase has no
  row for (log 17). -/
  | responseHasNoMove
deriving DecidableEq, Repr

/-- STATUS after reset: 0x0000 (spec/70_reset_and_hazards.md R801). -/
def resetStatus : Status where
  busy := false
  rej := false
  ovf := false
  res := .none

/-- D0RES after reset and at the start of D0_CYCLE: 0x0070 (spec/70_reset_and_hazards.md R801, spec/43_d0_engine.md
R600). -/
def resetD0res : HandshakeResult where
  mode := .none
  baud := 7
  verdict := .notApplicable
  stxSeen := false
  etxSeen := false
  bangSeen := false
  obtained := false
  bccValid := false

/-- The block right after reset: every value is the one spec/70_reset_and_hazards.md R801 states. The model's own fields
and the buffers' listed cells are DESIGN CHOICE (logs 1, 2, 4, 5, 6). -/
def State.reset : State where
  cfg := Config.thisHardware
  status := resetStatus
  wakeEn := false
  budget := 0x0000
  crca := 0x0000
  crcc := 0xFFFF
  lrc := 0xFF
  bufLen := 0
  failCnt := 0
  cls := .none
  chk := 0x0000
  d0res := resetD0res
  bcc := { rxBcc := 0x00, lrcCalc := 0x00 }
  idLen := 0
  eng := .idle
  frPhase := .hunt
  tailN := 0
  d0Phase := .setbaud0
  seqK := 0
  bangCnt := 0
  rateCode := 0
  zchar := 0x00
  tbuf := []
  ibuf := []
  pending := none
  history := []
  inbox := []
  lastRead := none
  drawCount := 0

end Sys2Proof.Machine
end

