-- ==== Sys2Proof/Machine/Ops.lean ====
section
/-! DEFINITION. The named operations over buffers, registers and the transport port: MemRead and MemWrite
(spec/20_memory.md R202, R203), acceptance and refusal of a command (spec/41_buffer_and_host.md R452, R453), raising a
result (spec/60_exceptions.md R703) and issuing a transport request (spec/10_state.md R141). -/

namespace Sys2Proof.Machine

/-! ### Buffers -/

/-- What an unlisted buffer index holds. The spec gives a buffer no contents at reset (spec/10_state.md R124) and no
rule reads a byte at or above the length; 0x00 is a DESIGN CHOICE (log 6). -/
def Memory.unwritten : Byte := 0x00

/-- The byte at an index. -/
def Memory.read : Memory → Nat → Byte
  | [], _ => Memory.unwritten
  | (a, b) :: m, i => if a = i then b else Memory.read m i

/-- Storing a byte at an index, keeping the canonical form. -/
def Memory.write : Memory → Nat → Byte → Memory
  | [], i, v => if v = Memory.unwritten then [] else [(i, v)]
  | (a, b) :: m, i, v =>
    if i < a then
      if v = Memory.unwritten then (a, b) :: m else (i, v) :: (a, b) :: m
    else if i = a then
      if v = Memory.unwritten then m else (i, v) :: m
    else (a, b) :: Memory.write m i v

/-- Every listed index is above `lo`. -/
def Memory.above (lo : Nat) (m : Memory) : Bool := m.all fun c => decide (lo < c.1)

/-- The canonical form: indices strictly rising, no cell equal to what an unlisted index holds. -/
def Memory.wf : Memory → Bool
  | [] => true
  | (a, b) :: m => Memory.above a m && decide (b ≠ Memory.unwritten) && Memory.wf m

/-- The bytes `space[0..n-1]` in order. -/
def Memory.firstBytes (m : Memory) (n : Nat) : List Byte := (List.range n).map m.read

/-! ### STATUS -/

/-- `R(STATUS.RES) <- code`. -/
def State.setRes (code : ResultCode) (s : State) : State := { s with status := { s.status with res := code } }

/-- `R(STATUS.REJ) <- b`. -/
def State.setRej (b : Bool) (s : State) : State := { s with status := { s.status with rej := b } }

/-! ### Results -/

/-- The results after which a running command keeps its telegram (spec/60_exceptions.md R703). -/
def ResultCode.keepsTelegram : ResultCode → Bool
  | .ok => true
  | .lrcMismatch => true
  | _ => false

/-- The part of `raise Result(code)` that ends a running engine (spec/60_exceptions.md R703). -/
def State.endEngine (keep : Bool) (s : State) : State :=
  { s with
    bufLen := if keep then s.bufLen else 0
    eng := .idle
    pending := none
    status := { s.status with busy := false } }

/-- `raise Result(code)` (spec/60_exceptions.md R703), the one way a command ends. -/
def State.raiseResult (code : ResultCode) (s : State) : State :=
  if s.eng = .idle then s.setRes code else (s.setRes code).endEngine code.keepsTelegram

/-! ### Command acceptance -/

/-- Refuse() (spec/41_buffer_and_host.md R453): only REJ changes. -/
def State.refuse (s : State) : State := s.setRej true

/-- A command word written to CMD: refused while BUSY = 1 (spec/41_buffer_and_host.md R451, R453), otherwise accepted,
which sets REJ <- 0 and then runs the word's rule (R452). -/
def acceptCommand (rule : State → State) (s : State) : Host.Outcome State Fault Refusal :=
  if s.status.busy then .next s.refuse else .next (rule (s.setRej false))

/-- A single-step command (spec/41_buffer_and_host.md R452): its state changes, then RES <- OK. -/
def State.completing (effect : State → State) (s : State) : State := (effect s).setRes .ok

/-- CLASS <- NONE and CHK <- 0 (spec/10_state.md R113, R114), by every command that changes TBUF or BUFLEN. -/
def State.clearClass (s : State) : State := { s with cls := .none, chk := 0x0000 }

/-! ### Transport port -/

/-- `issue REQ` (spec/10_state.md R141). -/
def State.issue (r : Request) (s : State) : State :=
  { s with pending := some r, history := s.history ++ [r] }

/-- The request is answered: `PENDING <- none` (spec/10_state.md R142). -/
def State.answered (s : State) : State := { s with pending := none }

/-- The responses each request admits (spec/10_state.md R140). -/
def admits : Request → Response → Bool
  | .rx, .byte _ => true
  | .rx, .timeout => true
  | .rx, .ioerr => true
  | .tx _, .ok => true
  | .tx _, .ioerr => true
  | .setbaud _, .ok => true
  | .setbaud _, .ioerr => true
  | .flush, .ok => true
  | .flush, .ioerr => true
  | .drain, .ok => true
  | .drain, .ioerr => true
  | .wait _, .done => true
  | _, _ => false

/-! ### Appending to a buffer -/

/-- BUFLEN = CAPACITY: no byte fits (spec/41_buffer_and_host.md R456, spec/42_frame_scanner.md R504). -/
def State.tbufFull (s : State) : Bool := decide (s.bufLen.toNat = s.cfg.capacity)

/-- IDLEN = IDENT_CAP (spec/43_d0_engine.md R610 b). -/
def State.ibufFull (s : State) : Bool := decide (s.idLen.toNat = s.cfg.identCap)

/-- `MemWrite(TBUF, R(BUFLEN), 1, b); R(BUFLEN) <- R(BUFLEN) + 1` (spec/20_memory.md R203). -/
def State.appendTbuf (b : Byte) (s : State) : State :=
  { s with tbuf := s.tbuf.write s.bufLen.toNat b, bufLen := s.bufLen + 1 }

/-- `MemWrite(IBUF, R(IDLEN), 1, b); R(IDLEN) <- R(IDLEN) + 1` (spec/20_memory.md R203). -/
def State.appendIbuf (b : Byte) (s : State) : State :=
  { s with ibuf := s.ibuf.write s.idLen.toNat b, idLen := s.idLen + 1 }

/-- TBUF[0..BUFLEN-1]. -/
def State.telegram (s : State) : List Byte := s.tbuf.firstBytes s.bufLen.toNat

/-- IBUF[0..IDLEN-1]. -/
def State.identLine (s : State) : List Byte := s.ibuf.firstBytes s.idLen.toNat

end Sys2Proof.Machine
end

