-- ==== Sys2Proof/Machine/Operands.lean ====
section
/-! DEFINITION. Operand bytes: the I form's byte (spec/30_encoding.md R301, R302), the ASCII bytes the rules name
(spec/00_scope.md R12) and the byte classes. -/

namespace Sys2Proof.Machine

/-- An I-form operand combined with a 16-bit accumulator is zero-extended (spec/30_encoding.md R302). -/
def operand16 (d : Byte) : Word := zext16 d

/-- '/' -/
abbrev chSlash : Byte := 0x2F
/-- '!' -/
abbrev chBang : Byte := 0x21
/-- '\' -/
abbrev chBackslash : Byte := 0x5C
/-- CR -/
abbrev chCR : Byte := 0x0D
/-- LF -/
abbrev chLF : Byte := 0x0A
/-- STX -/
abbrev chSTX : Byte := 0x02
/-- ETX -/
abbrev chETX : Byte := 0x03
/-- NUL -/
abbrev chNUL : Byte := 0x00

/-- A hex digit: '0'..'9', 'A'..'F', 'a'..'f' (spec/40_checksum.md R411). -/
def isHex (b : Byte) : Bool :=
  (0x30 ≤ b && b ≤ 0x39) || (0x41 ≤ b && b ≤ 0x46) || (0x61 ≤ b && b ≤ 0x66)

/-- The value of a hex digit; 0 for any other byte. -/
def hexValue (b : Byte) : Nat :=
  if 0x30 ≤ b && b ≤ 0x39 then b.toNat - 0x30
  else if 0x41 ≤ b && b ≤ 0x46 then b.toNat - 0x41 + 10
  else if 0x61 ≤ b && b ≤ 0x66 then b.toNat - 0x61 + 10
  else 0

/-- Four hex digits read most-significant digit first (spec/20_memory.md R206). -/
def hexWord (h3 h2 h1 h0 : Byte) : Word :=
  BitVec.ofNat 16 (((hexValue h3 * 16 + hexValue h2) * 16 + hexValue h1) * 16 + hexValue h0)

/-- A printable byte, 0x20..0x7E (spec/43_d0_engine.md R620). -/
def isPrintable (b : Byte) : Bool := 0x20 ≤ b && b ≤ 0x7E

/-- A rate digit '0'..'6' (spec/43_d0_engine.md R620). -/
def isRateDigit (b : Byte) : Bool := 0x30 ≤ b && b ≤ 0x36

/-- A mode B rate letter 'A'..'G' (spec/43_d0_engine.md R620). -/
def isRateLetter (b : Byte) : Bool := 0x41 ≤ b && b ≤ 0x47

end Sys2Proof.Machine
end

