-- ==== Sys2Proof/Machine/Flags.lean ====
section
/-! DEFINITION. The flags and fields as the register port shows them (spec/10_state.md R104, R105, R109, R110, R113, R115,
R116). Every reserved bit reads 0. -/

namespace Sys2Proof.Machine

/-- A flag's bit at a position of a 16-bit register. -/
def flagBit (b : Bool) (pos : Nat) : Word := (BitVec.ofBool b).setWidth 16 <<< pos

/-- The numbers of spec/60_exceptions.md R700. -/
def ResultCode.code : ResultCode → BitVec 4
  | .none => 0
  | .ok => 1
  | .lrcMismatch => 2
  | .timeout => 3
  | .budgetExceeded => 4
  | .ioError => 5
  | .invalidIdent => 6
  | .noIdent => 7
  | .protocolUnsupported => 8
  | .bufferOverflow => 9
  | .illegalCmd => 10

/-- STATUS as read (spec/10_state.md R104): RES<<4 | OVF<<2 | REJ<<1 | BUSY. -/
def Status.word (st : Status) : Word :=
  (st.res.code.setWidth 16 <<< 4) ||| flagBit st.ovf 2 ||| flagBit st.rej 1 ||| flagBit st.busy 0

/-- The encoding of MODE (spec/10_state.md R115). -/
def Mode.code : Mode → BitVec 3
  | .none => 0
  | .a => 1
  | .b => 2
  | .c => 3
  | .d => 4
  | .e => 5

/-- The encoding of VERDICT (spec/10_state.md R115). -/
def Verdict.code : Verdict → BitVec 2
  | .notApplicable => 0
  | .ok => 1
  | .failed => 2

/-- D0RES as read (spec/10_state.md R115). -/
def HandshakeResult.word (r : HandshakeResult) : Word :=
  flagBit r.bccValid 14 ||| flagBit r.obtained 13 ||| flagBit r.bangSeen 12 ||| flagBit r.etxSeen 11 |||
    flagBit r.stxSeen 10 ||| (r.verdict.code.setWidth 16 <<< 8) ||| (r.baud.setWidth 16 <<< 4) |||
    r.mode.code.setWidth 16

/-- BCC as read (spec/10_state.md R116): LRC_CALC<<8 | RX_BCC. -/
def BlockCheck.word (c : BlockCheck) : Word := c.lrcCalc ++ c.rxBcc

/-- CLASS as read (spec/10_state.md R113). -/
def TailClass.word : TailClass → Word
  | .none => 0
  | .old => 1
  | .new => 2
  | .malformed => 3

/-- CONFIG as read (spec/10_state.md R105). -/
def configWord (wakeEn : Bool) : Word := flagBit wakeEn 0

/-- The modes with an ACK exchange, the negotiated ones (spec/43_d0_engine.md R631, R670). -/
def Mode.isNegotiated : Mode → Bool
  | .none => false
  | .a => false
  | .b => false
  | .c => true
  | .d => true
  | .e => true

/-- The result a finished cycle reports (spec/43_d0_engine.md R671). -/
def Verdict.result : Verdict → ResultCode
  | .notApplicable => .ok
  | .ok => .ok
  | .failed => .lrcMismatch

/-- The block check's verdict on a received character (spec/43_d0_engine.md R661). -/
def blockCheckVerdict (received computed : Byte) : Verdict := if received = computed then .ok else .failed

end Sys2Proof.Machine
end

