-- ==== Sys2Proof/Machine/Buffer.lean ====
section
/-! DEFINITION. NOP and the buffer commands (spec/41_buffer_and_host.md R454 to R456). -/

namespace Sys2Proof.Machine

/-- NOP (spec/41_buffer_and_host.md R454). -/
def execNop (s : State) : Host.Outcome State Fault Refusal :=
  acceptCommand (State.completing fun t => t) s

/-- BUF_CLEAR (spec/41_buffer_and_host.md R455): the bytes of TBUF are not erased. -/
def execBufClear (s : State) : Host.Outcome State Fault Refusal :=
  acceptCommand (State.completing fun t => ({ t with bufLen := 0 } : State).clearClass) s

/-- The rule of BUF_PUSH d: BUFFER_OVERFLOW when the buffer is full, otherwise the byte is appended. -/
def State.pushByte (d : Byte) (s : State) : State :=
  if s.tbufFull then s.raiseResult .bufferOverflow else s.completing fun t => (t.appendTbuf d).clearClass

/-- BUF_PUSH d (spec/41_buffer_and_host.md R456). -/
def execBufPush (d : Byte) (s : State) : Host.Outcome State Fault Refusal :=
  acceptCommand (State.pushByte d) s

end Sys2Proof.Machine
end

