-- ==== Sys2Proof/Machine/Checksum.lean ====
section
/-! DEFINITION. The checksum unit (spec/40_checksum.md): CRC16 variants A and C, the LRC, and their commands. -/

namespace Sys2Proof.Machine

/-- One shift/XOR step of a reflected CRC16 (spec/40_checksum.md R401, R404). -/
def crcShift (poly c : Word) : Word := if c.getLsbD 0 then (c >>> 1) ^^^ poly else c >>> 1

/-- `n` shift/XOR steps. -/
def crcShifts (poly : Word) : Nat → Word → Word
  | 0, c => c
  | n + 1, c => crcShifts poly n (crcShift poly c)

/-- One byte step of a reflected CRC16: the byte enters the low 8 bits, then 8 shift/XOR steps (spec/20_memory.md R205,
spec/40_checksum.md R401, R404). -/
def crcByteStep (poly c : Word) (d : Byte) : Word := crcShifts poly 8 (c ^^^ operand16 d)

/-- The polynomial of variant A (spec/40_checksum.md R400). -/
def polyA : Word := 0xA001

/-- The polynomial of variant C (spec/40_checksum.md R404). -/
def polyC : Word := 0x8408

/-- The initial value of variant A (spec/40_checksum.md R400). -/
def initA : Word := 0x0000

/-- The initial value of variant C (spec/40_checksum.md R404). -/
def initC : Word := 0xFFFF

/-- crcA_step (spec/40_checksum.md R401). -/
def crcAStep (c : Word) (d : Byte) : Word := crcByteStep polyA c d

/-- crcC_step (spec/40_checksum.md R404). -/
def crcCStep (c : Word) (d : Byte) : Word := crcByteStep polyC c d

/-- crcA, a left fold over the bytes in order (spec/40_checksum.md R400). -/
def crcA (s : List Byte) : Word := s.foldl crcAStep initA

/-- crcC with the final XOR given (spec/40_checksum.md R404). -/
def crcC (xorout : Word) (s : List Byte) : Word := s.foldl crcCStep initC ^^^ xorout

/-- The LRC's seed (spec/40_checksum.md R407, R408). -/
def lrcSeed : Byte := 0xFF

/-- The LRC's final XOR (spec/40_checksum.md R407). -/
def lrcFinish (a : Byte) : Byte := a ^^^ 0xFF

/-- Folding one byte into the LRC accumulator (spec/40_checksum.md R409). -/
def lrcStep (a d : Byte) : Byte := a ^^^ d

/-- lrc of a byte sequence (spec/40_checksum.md R407). -/
def lrcOf (s : List Byte) : Byte := lrcFinish (s.foldl lrcStep lrcSeed)

/-- CRCA_INIT (spec/40_checksum.md R402). -/
def execCrcaInit (s : State) : Host.Outcome State Fault Refusal :=
  acceptCommand (State.completing fun t => { t with crca := initA }) s

/-- CRCA_BYTE d (spec/40_checksum.md R403). -/
def execCrcaByte (d : Byte) (s : State) : Host.Outcome State Fault Refusal :=
  acceptCommand (State.completing fun t => { t with crca := crcAStep t.crca d }) s

/-- CRCC_INIT (spec/40_checksum.md R405). -/
def execCrccInit (s : State) : Host.Outcome State Fault Refusal :=
  acceptCommand (State.completing fun t => { t with crcc := initC }) s

/-- CRCC_BYTE d (spec/40_checksum.md R406). -/
def execCrccByte (d : Byte) (s : State) : Host.Outcome State Fault Refusal :=
  acceptCommand (State.completing fun t => { t with crcc := crcCStep t.crcc d }) s

/-- LRC_INIT (spec/40_checksum.md R408). -/
def execLrcInit (s : State) : Host.Outcome State Fault Refusal :=
  acceptCommand (State.completing fun t => { t with lrc := lrcSeed }) s

/-- LRC_BYTE d (spec/40_checksum.md R409). -/
def execLrcByte (d : Byte) (s : State) : Host.Outcome State Fault Refusal :=
  acceptCommand (State.completing fun t => { t with lrc := lrcStep t.lrc d }) s

end Sys2Proof.Machine
end

