-- ==== Sys2Proof/Machine/Classify.lean ====
section
/-! DEFINITION. The tail classifier CLASSIFY (spec/40_checksum.md R411 to R413). -/

namespace Sys2Proof.Machine

/-- The byte k places before the end of t, counting from 1: `t[L-k]`. -/
def fromEnd (t : List Byte) (k : Nat) : Byte := t.getD (t.length - k) 0

/-- The old-style tail, `!` CR LF (spec/40_checksum.md R412). -/
def hasOldTail (t : List Byte) : Bool :=
  decide (3 ≤ t.length) && fromEnd t 3 == chBang && fromEnd t 2 == chCR && fromEnd t 1 == chLF

/-- The new-style tail, `!`, four hex digits, CR LF (spec/40_checksum.md R412). -/
def hasNewTail (t : List Byte) : Bool :=
  decide (7 ≤ t.length) && fromEnd t 7 == chBang && isHex (fromEnd t 6) && isHex (fromEnd t 5) && isHex (fromEnd t 4) &&
    isHex (fromEnd t 3) && fromEnd t 2 == chCR && fromEnd t 1 == chLF

/-- CLASS and CHK of a telegram; the CRC of a new-style one covers t[0..L-7] (spec/40_checksum.md R412). -/
def classifyTail (t : List Byte) : TailClass × Word :=
  if hasOldTail t then (.old, 0x0000)
  else if hasNewTail t then (.new, crcA (t.take (t.length - 6)))
  else (.malformed, 0x0000)

/-- CLASSIFY (spec/40_checksum.md R412). -/
def execClassify (s : State) : Host.Outcome State Fault Refusal :=
  acceptCommand
    (State.completing fun t => { t with cls := (classifyTail t.telegram).1, chk := (classifyTail t.telegram).2 }) s

end Sys2Proof.Machine
end

