-- ==== Sys2Proof/Machine/Sequences.lean ====
section
/-! DEFINITION. The byte sequences the D0 engine sends and the baud table (spec/00_scope.md R9, log 9). -/

namespace Sys2Proof.Machine

/-- SIGNON_SEQ, `"/?!\r\n"` (spec/00_scope.md R9, spec/43_d0_engine.md R606). -/
def signonSeq : List Byte := [0x2F, 0x3F, 0x21, 0x0D, 0x0A]

/-- ACK_SEQ(Z) (spec/00_scope.md R9, spec/43_d0_engine.md R631). -/
def ackSeq (z : Byte) : List Byte := [0x06, 0x30, z, 0x30, 0x0D, 0x0A]

/-- SIGNOFF_SEQ (spec/00_scope.md R9, spec/43_d0_engine.md R670). -/
def signoffSeq : List Byte := [0x01, 0x42, 0x30, 0x03, 0x71, 0x00]

/-- BAUD(k) for k = 0..6 (spec/00_scope.md R9); rate code 7 stands for none (spec/10_state.md R115). -/
def baudRate (k : BitVec 3) : Option Nat := [300, 600, 1200, 2400, 4800, 9600, 19200][k.toNat]?

end Sys2Proof.Machine
end

