-- ==== Sys2Proof/Machine/D0Engine.lean ====
section
/-! DEFINITION. The D0 handshake engine D0_CYCLE (spec/43_d0_engine.md): the sequential program of R601 cut at its
`await`s into the phases of R602. -/

namespace Sys2Proof.Machine

/-- Entering a phase and issuing the request that is pending in it (spec/43_d0_engine.md R602). -/
def State.enterPhase (ph : D0Phase) (r : Request) (s : State) : State := State.issue r { s with d0Phase := ph }

/-- The start of D0_CYCLE (spec/43_d0_engine.md R600). -/
def State.startCycle (s : State) : State :=
  State.enterPhase .setbaud0 (.setbaud 0)
    { s with
      bufLen := 0
      idLen := 0
      cls := .none
      chk := 0x0000
      d0res := resetD0res
      bcc := { rxBcc := 0x00, lrcCalc := 0x00 }
      lrc := lrcSeed
      bangCnt := 0
      eng := .d0
      status := { s.status with busy := true } }

/-- D0_CYCLE (spec/43_d0_engine.md R600). -/
def execD0Cycle (s : State) : Host.Outcome State Fault Refusal := acceptCommand State.startCycle s

/-- `for b in seq: await issue TX(b)`, from byte k on, then `after` (spec/43_d0_engine.md R601, R602: SEQ_K). -/
def State.sendFrom (ph : D0Phase) (seq : List Byte) (after : State → State) (k : Nat) (s : State) : State :=
  match seq[k]? with
  | some b => State.enterPhase ph (.tx b) { s with seqK := k }
  | none => after s

/-! ### Steps 1 and 2: wake-up and sign-on (R604 to R606) -/

/-- The identification read begins (spec/43_d0_engine.md R601 step 3). -/
def State.enterIdent (s : State) : State := s.enterPhase .ident .rx

/-- The sign-on from byte k on (spec/43_d0_engine.md R606). -/
def State.sendSignon (k : Nat) (s : State) : State := s.sendFrom .signonTx signonSeq State.enterIdent k

/-- The flush before the sign-on (spec/43_d0_engine.md R606). -/
def State.enterFlush (s : State) : State := s.enterPhase .flush .flush

/-- The settle wait (spec/43_d0_engine.md R605). -/
def State.enterSettle (s : State) : State := s.enterPhase .settle (.wait s.cfg.tSettleMs)

/-- Wake-up byte number k of WAKE_COUNT, counting from 1, or the settle wait when all are sent (spec/43_d0_engine.md
R602, R605). -/
def State.sendWake (k : Nat) (s : State) : State :=
  if k ≤ s.cfg.wakeCount then State.enterPhase .wakeTx (.tx chNUL) { s with seqK := k } else s.enterSettle

/-- After SETBAUD(0): the wake-up if CONFIG.WAKE_EN = 1 (spec/43_d0_engine.md R604, R605). -/
def State.afterSetbaud0 (s : State) : State := if s.wakeEn then s.sendWake 1 else s.enterFlush

/-! ### Steps 6 to 9: telegram read, block check, sign-off, terminal (R650 to R671) -/

/-- The telegram read begins. -/
def State.enterTel (s : State) : State := s.enterPhase .tel .rx

/-- Terminal (spec/43_d0_engine.md R671). -/
def State.terminal (s : State) : State := s.raiseResult s.d0res.verdict.result

/-- The drain after the sign-off (spec/43_d0_engine.md R670). -/
def State.enterDrain (s : State) : State := s.enterPhase .drain .drain

/-- The sign-off from byte k on (spec/43_d0_engine.md R670). -/
def State.sendSignoff (k : Nat) (s : State) : State := s.sendFrom .signoffTx signoffSeq State.enterDrain k

/-- Step 8: the sign-off in a negotiated mode, then step 9 (spec/43_d0_engine.md R670, R671). -/
def State.signOff (s : State) : State := if s.d0res.mode.isNegotiated then s.sendSignoff 0 else s.terminal

/-- The read loop ends: LRC_CALC is latched, then the block check if both markers were seen (spec/43_d0_engine.md R660,
R661). -/
def State.endOfTelegram (s : State) : State :=
  let t := { s with bcc := { s.bcc with lrcCalc := lrcFinish s.lrc } }
  if t.d0res.stxSeen && t.d0res.etxSeen then t.enterPhase .bccRd .rx else t.signOff

/-- `R(D0RES.OBTAINED) <- 1; exit loop` (spec/43_d0_engine.md R660). -/
def State.obtain (s : State) : State := State.endOfTelegram { s with d0res := { s.d0res with obtained := true } }

/-- ETX in the telegram read (spec/43_d0_engine.md R651). -/
def State.telEtx (s : State) : State :=
  State.obtain
    { s with
      d0res := { s.d0res with etxSeen := true }
      lrc := if s.d0res.stxSeen then lrcStep s.lrc chETX else s.lrc }

/-- The first STX in the telegram read (spec/43_d0_engine.md R650). -/
def State.telStx (s : State) : State :=
  { s with
    d0res := { s.d0res with stxSeen := true }
    lrc := if s.cfg.lrcStxIncluded then lrcStep lrcSeed chSTX else lrcSeed }

/-- A stored byte of the telegram read (spec/43_d0_engine.md R652). -/
def State.telStore (b : Byte) (s : State) : State :=
  { s.appendTbuf b with lrc := if s.d0res.stxSeen then lrcStep s.lrc b else s.lrc }

/-- The `!` budget after a byte b that does not end the loop, then the next RX (spec/43_d0_engine.md R653). -/
def State.telBang (b : Byte) (s : State) : State :=
  if s.d0res.bangSeen then
    let t := { s with bangCnt := s.bangCnt + 1 }
    if t.bangCnt = t.cfg.bangBudget then t.obtain else t.enterTel
  else if b = chBang then
    State.enterTel { s with d0res := { s.d0res with bangSeen := true }, bangCnt := 0 }
  else s.enterTel

/-- A byte received in the telegram read (spec/43_d0_engine.md R650 to R653, R655). -/
def State.telByte (b : Byte) (s : State) : State :=
  if b = chETX then s.telEtx
  else if b = chSTX ∧ s.d0res.stxSeen = false then s.telStx.telBang b
  else if s.tbufFull then s.raiseResult .bufferOverflow
  else (s.telStore b).telBang b

/-- A TIMEOUT in the telegram read (spec/43_d0_engine.md R654). -/
def State.telTimeout (s : State) : State := if s.d0res.bangSeen then s.obtain else s.raiseResult .timeout

/-- The received block-check character (spec/43_d0_engine.md R661). -/
def State.bccByte (c : Byte) (s : State) : State :=
  State.signOff
    { s with
      bcc := { s.bcc with rxBcc := c }
      d0res := { s.d0res with bccValid := true, verdict := blockCheckVerdict c s.bcc.lrcCalc } }

/-- A TIMEOUT of the block-check read (spec/43_d0_engine.md R662). -/
def State.bccTimeout (s : State) : State := State.signOff { s with d0res := { s.d0res with verdict := .failed } }

/-! ### Steps 3 to 5: identification, mode detection, negotiation (R610 to R641) -/

/-- What ModeDetect gives. -/
inductive ModeResult where
  | detected (mode : Mode) (k : BitVec 3)
  | raises (code : ResultCode)
deriving DecidableEq, Repr

/-- ModeDetect(c) on the line without its CR LF (spec/43_d0_engine.md R620, R640). -/
def modeDetect (c : List Byte) : ModeResult :=
  if c.length < 5 then .raises .invalidIdent
  else
    let z := c.getD 4 0
    if isRateDigit z then
      let k := (z - 0x30).setWidth 3
      if decide (6 ≤ c.length) && c.getD 5 0 == chBackslash then
        if decide (7 ≤ c.length) && c.getD 6 0 == 0x32 then .raises .protocolUnsupported else .detected .e k
      else .detected .c k
    else if isRateLetter z then .detected .b ((z - 0x41).setWidth 3)
    else if isPrintable z then .detected .a 0
    else .raises .invalidIdent

/-- The switch of mode B (spec/43_d0_engine.md R630). -/
def State.enterBaudB (s : State) : State := s.enterPhase .baudB (.setbaud s.rateCode)

/-- The wait after the ACK (spec/43_d0_engine.md R631). -/
def State.enterAckWait (s : State) : State := s.enterPhase .ackWait (.wait s.cfg.tAckMs)

/-- The switch after the ACK wait (spec/43_d0_engine.md R631). -/
def State.enterBaudC (s : State) : State := s.enterPhase .baudC (.setbaud s.rateCode)

/-- The ACK from byte k on (spec/43_d0_engine.md R631). -/
def State.sendAck (k : Nat) (s : State) : State := s.sendFrom .ackTx (ackSeq s.zchar) State.enterAckWait k

/-- After a successful ModeDetect (spec/43_d0_engine.md R601 steps 4 and 5, R641). -/
def State.negotiate (mode : Mode) (k : BitVec 3) (s : State) : State :=
  let t := { s with d0res := { s.d0res with mode := mode, baud := k }, rateCode := k, zchar := s.ibuf.read 4 }
  if mode = .b then t.enterBaudB else if mode.isNegotiated then t.sendAck 0 else t.enterTel

/-- The identification line is complete: ModeDetect on it without its CR LF (spec/43_d0_engine.md R620). -/
def State.detectMode (s : State) : State :=
  match modeDetect (s.ibuf.firstBytes (s.idLen.toNat - 2)) with
  | .detected mode k => s.negotiate mode k
  | .raises code => s.raiseResult code

/-- The end of a line at LF: it must follow a CR (spec/43_d0_engine.md R610 d). -/
def State.endOfLine (s : State) : State :=
  if 2 ≤ s.idLen.toNat ∧ s.ibuf.read (s.idLen.toNat - 2) = chCR then s.detectMode else s.raiseResult .noIdent

/-- A byte received in the identification read (spec/43_d0_engine.md R610). -/
def State.identByte (b : Byte) (s : State) : State :=
  if s.idLen = 0 ∧ b ≠ chSlash then s.raiseResult .invalidIdent
  else if s.ibufFull then s.raiseResult .noIdent
  else if b = chLF then (s.appendIbuf b).endOfLine
  else (s.appendIbuf b).enterIdent

/-! ### The phase table -/

/-- A response other than IOERR consumed by the D0 engine (spec/43_d0_engine.md R602); none where the phase has no row
for it. -/
def State.d0Advance (a : Response) (s : State) : Option State :=
  match s.d0Phase, a with
  | .setbaud0, .ok => some s.afterSetbaud0
  | .wakeTx, .ok => some (s.sendWake (s.seqK + 1))
  | .settle, .done => some s.enterFlush
  | .flush, .ok => some (s.sendSignon 0)
  | .signonTx, .ok => some (s.sendSignon (s.seqK + 1))
  | .ident, .byte b => some (s.identByte b)
  | .ident, .timeout => some (s.raiseResult .noIdent)
  | .baudB, .ok => some s.enterTel
  | .ackTx, .ok => some (s.sendAck (s.seqK + 1))
  | .ackWait, .done => some s.enterBaudC
  | .baudC, .ok => some s.enterTel
  | .tel, .byte b => some (s.telByte b)
  | .tel, .timeout => some s.telTimeout
  | .bccRd, .byte c => some (s.bccByte c)
  | .bccRd, .timeout => some s.bccTimeout
  | .signoffTx, .ok => some (s.sendSignoff (s.seqK + 1))
  | .drain, .ok => some s.terminal
  | _, _ => none

/-- A response consumed by the D0 engine: IOERR ends the cycle in every phase (spec/43_d0_engine.md R603), otherwise the
phase table. -/
def State.d0Respond (a : Response) (s : State) : Option State :=
  if a = .ioerr then some (s.raiseResult .ioError) else s.d0Advance a

end Sys2Proof.Machine
end

