-- ==== Sys2Proof/Machine/FrameScanner.lean ====
section
/-! DEFINITION. The frame scanner FR_SCAN (spec/42_frame_scanner.md). -/

namespace Sys2Proof.Machine

/-- The start of FR_SCAN (spec/42_frame_scanner.md R500). -/
def State.startScan (s : State) : State :=
  State.issue .rx
    { s with
      bufLen := 0
      failCnt := 0
      status := { s.status with ovf := false, busy := true }
      cls := .none
      chk := 0x0000
      frPhase := .hunt
      tailN := 0
      eng := .fr }

/-- FR_SCAN (spec/42_frame_scanner.md R500). -/
def execFrScan (s : State) : Host.Outcome State Fault Refusal := acceptCommand State.startScan s

/-- FAILCNT is over a budget that is not 0 (spec/42_frame_scanner.md R507). -/
def State.overBudget (s : State) : Bool := decide (s.budget ≠ 0) && decide (s.budget < s.failCnt)

/-- FailAdd(k) (spec/42_frame_scanner.md R507). -/
def State.failAdd (k : Nat) (s : State) : State :=
  let t := { s with failCnt := sat16 (s.failCnt.toNat + k) }
  if t.overBudget then t.raiseResult .budgetExceeded else t

/-- Discard() (spec/42_frame_scanner.md R509). -/
def State.discard (s : State) : State :=
  State.failAdd s.bufLen.toNat { s with bufLen := 0, frPhase := .hunt, tailN := 0 }

/-- Overflow() (spec/42_frame_scanner.md R508). -/
def State.overflow (s : State) : State :=
  State.failAdd (s.bufLen.toNat + 1)
    { s with bufLen := 0, status := { s.status with ovf := true }, frPhase := .hunt, tailN := 0 }

/-- `MemWrite(TBUF, 0, 1, b); R(BUFLEN) <- 1; FR_PHASE <- BODY` (spec/42_frame_scanner.md R502, R503). -/
def State.startCandidate (b : Byte) (s : State) : State :=
  { s with tbuf := s.tbuf.write 0 b, bufLen := 1, frPhase := .body }

/-- FrByte(b) in HUNT (spec/42_frame_scanner.md R502). -/
def State.frHunt (b : Byte) (s : State) : State :=
  if b = chSlash then s.startCandidate b else s.failAdd 1

/-- FrByte(b) in BODY (spec/42_frame_scanner.md R503 for `/`, R504 and R505 for every other byte). -/
def State.frBody (b : Byte) (s : State) : State :=
  if b = chSlash then (s.startCandidate b).failAdd s.bufLen.toNat
  else if s.tbufFull then s.overflow
  else if b = chBang then { s.appendTbuf b with frPhase := .tail, tailN := 0 }
  else s.appendTbuf b

/-- `x[j]`, byte j of the TAIL_N bytes after the `!` (spec/42_frame_scanner.md R506). -/
def State.tailByte (s : State) (j : Nat) : Byte := s.tbuf.read (s.bufLen.toNat - s.tailN + j)

/-- The 6-byte chunk is four hex digits, CR, LF (spec/42_frame_scanner.md R506). -/
def State.newTailOk (s : State) : Bool :=
  isHex (s.tailByte 0) && isHex (s.tailByte 1) && isHex (s.tailByte 2) && isHex (s.tailByte 3) &&
    s.tailByte 4 == chCR && s.tailByte 5 == chLF

/-- The check of the tail chunk after a byte of it is stored (spec/42_frame_scanner.md R506). -/
def State.checkTail (s : State) : State :=
  if s.tailN = 2 ∧ s.tailByte 0 = chCR then
    if s.tailByte 1 = chLF then s.raiseResult .ok else s.discard
  else if s.tailN = 6 then
    if s.newTailOk then s.raiseResult .ok else s.discard
  else s

/-- FrByte(b) in TAIL (spec/42_frame_scanner.md R506). -/
def State.frTail (b : Byte) (s : State) : State :=
  if s.tbufFull then s.overflow
  else State.checkTail { s.appendTbuf b with tailN := s.tailN + 1 }

/-- FrByte(b) (spec/42_frame_scanner.md R502 to R506). -/
def State.frByte (b : Byte) (s : State) : State :=
  match s.frPhase with
  | .hunt => s.frHunt b
  | .body => s.frBody b
  | .tail => s.frTail b

/-- "if ENG = FR: issue RX" (spec/42_frame_scanner.md R501). -/
def State.frContinue (s : State) : State := if s.eng = .fr then s.issue .rx else s

/-- A response consumed by the frame scanner (spec/42_frame_scanner.md R501); none where it has no row for it. -/
def State.frRespond (a : Response) (s : State) : Option State :=
  match a with
  | .timeout => some (s.raiseResult .timeout)
  | .ioerr => some (s.raiseResult .ioError)
  | .byte b => some (s.frByte b).frContinue
  | .ok => none
  | .done => none

end Sys2Proof.Machine
end

