-- ==== Sys2Proof/Machine/HostPort.lean ====
section
/-! DEFINITION. The host's register reads, buffer reads, and CONFIG and BUDGET writes (spec/10_state.md R102 to R118,
spec/20_memory.md R202, spec/41_buffer_and_host.md R450, R457, R458), and the host's reading of a result as a
ParseOutcome (spec/60_exceptions.md R716). -/

namespace Sys2Proof.Machine

/-- The addresses of spec/10_state.md R102. -/
def regAddr : RegName → RegAddr
  | .cmd => 0x00
  | .status => 0x01
  | .config => 0x02
  | .budget => 0x03
  | .crca => 0x04
  | .crcc => 0x05
  | .lrc => 0x06
  | .lrcres => 0x07
  | .buflen => 0x08
  | .failcnt => 0x09
  | .cls => 0x0A
  | .chk => 0x0B
  | .d0res => 0x0C
  | .bcc => 0x0D
  | .idlen => 0x0E

/-- The value HostRead(addr) returns (spec/10_state.md R102, spec/41_buffer_and_host.md R450). -/
def State.readReg (s : State) (addr : RegAddr) : Word :=
  match addr.toNat with
  | 0x01 => s.status.word
  | 0x02 => configWord s.wakeEn
  | 0x03 => s.budget
  | 0x04 => s.crca
  | 0x05 => s.crcc ^^^ s.cfg.ccittXorout
  | 0x06 => zext16 s.lrc
  | 0x07 => zext16 (lrcFinish s.lrc)
  | 0x08 => s.bufLen
  | 0x09 => s.failCnt
  | 0x0A => s.cls.word
  | 0x0B => s.chk
  | 0x0C => s.d0res.word
  | 0x0D => s.bcc.word
  | 0x0E => s.idLen
  | _ => 0x0000

/-- The length of a buffer's defined part (spec/20_memory.md R202). -/
def State.spaceLen (s : State) : Space → Nat
  | .tbuf => s.bufLen.toNat
  | .ibuf => s.idLen.toNat

/-- The capacity of a buffer (spec/20_memory.md R202). -/
def State.spaceCap (s : State) : Space → Nat
  | .tbuf => s.cfg.capacity
  | .ibuf => s.cfg.identCap

/-- The bytes of a buffer. -/
def State.space (s : State) : Space → Memory
  | .tbuf => s.tbuf
  | .ibuf => s.ibuf

/-- A read of this index is a draw: at or above the length, below the capacity (spec/20_memory.md R202). -/
def State.draws (s : State) (sp : Space) (i : Word) : Bool :=
  decide (s.spaceLen sp ≤ i.toNat) && decide (i.toNat < s.spaceCap sp)

/-- The byte HostBufRead(space, i) returns (spec/20_memory.md R202). -/
def State.readBuf (s : State) (sp : Space) (i : Word) : Byte :=
  if i.toNat < s.spaceLen sp then (s.space sp).read i.toNat
  else if i.toNat < s.spaceCap sp then Config.freeByte s.drawCount
  else 0x00

/-- HostRead: only what the port delivered is recorded (spec/20_memory.md R208). -/
def State.hostRead (addr : RegAddr) (s : State) : State := { s with lastRead := some (.word (s.readReg addr)) }

/-- HostBufRead: only what the port delivered is recorded, and a draw is counted (spec/20_memory.md R202, R208). -/
def State.hostBufRead (sp : Space) (i : Word) (s : State) : State :=
  { s with
    lastRead := some (.byte (s.readBuf sp i))
    drawCount := if s.draws sp i then s.drawCount + 1 else s.drawCount }

/-- A CONFIG write (spec/41_buffer_and_host.md R451, R457). -/
def State.writeConfig (v : Word) (s : State) : State :=
  if s.status.busy then s.refuse else { s with wakeEn := v.getLsbD 0 }

/-- A BUDGET write (spec/41_buffer_and_host.md R451, R458). -/
def State.writeBudget (v : Word) (s : State) : State :=
  if s.status.busy then s.refuse else { s with budget := v }

/-- Reset (spec/70_reset_and_hazards.md R800, R801): the block's whole state; the parameters and the model's own inputs
and outputs are not the block's state (log 14). -/
def State.resetBlock (s : State) : State :=
  { State.reset with cfg := s.cfg, inbox := s.inbox, lastRead := s.lastRead, drawCount := s.drawCount }

/-- The running engine consumes a response; none while no engine runs (spec/10_state.md R142). -/
def State.engineConsume (a : Response) (s : State) : Option State :=
  match s.eng with
  | .idle => none
  | .fr => s.frRespond a
  | .d0 => s.d0Respond a

/-- Respond(a) (spec/10_state.md R142): enabled when a request is pending and admits a; PENDING <- none, then the running
engine consumes a. -/
def State.respond (a : Response) (s : State) : Host.Outcome State Fault Refusal :=
  match s.pending with
  | none => .refused .responseHasNoMove
  | some r =>
    if admits r a then
      match s.answered.engineConsume a with
      | some t => .next t
      | none => .refused .responseHasNoMove
    else .refused .responseHasNoMove

/-! ### The host's ParseOutcome -/

/-- The facade's outcomes (spec/60_exceptions.md R716). -/
inductive ParseOutcome where
  | ok | crcMismatch | lrcMismatch | noFrameFound | bufferOverflow | ioError
deriving DecidableEq, Repr

/-- The CRC the four digits of a new-style telegram stand for, `t[L-6..L-3]` (spec/20_memory.md R206). -/
def embeddedCrc (t : List Byte) : Word := hexWord (fromEnd t 6) (fromEnd t 5) (fromEnd t 4) (fromEnd t 3)

/-- The outcome after an OK FR_SCAN and then CLASSIFY (spec/60_exceptions.md R716); none for the rows it calls not
reachable. -/
def State.classifiedOutcome (s : State) : Option ParseOutcome :=
  match s.cls with
  | .old => some .ok
  | .new => if s.chk = embeddedCrc s.telegram then some .ok else some .crcMismatch
  | .malformed => none
  | .none => none

/-- The outcome of a result code where OK stands for a finished D0_CYCLE (spec/60_exceptions.md R716); none for the codes
its table does not list. -/
def ResultCode.outcome : ResultCode → Option ParseOutcome
  | .ok => some .ok
  | .lrcMismatch => some .lrcMismatch
  | .timeout => some .noFrameFound
  | .budgetExceeded => some .noFrameFound
  | .invalidIdent => some .noFrameFound
  | .noIdent => some .noFrameFound
  | .bufferOverflow => some .bufferOverflow
  | .ioError => some .ioError
  | .protocolUnsupported => some .ioError
  | .illegalCmd => Option.none
  | .none => Option.none

end Sys2Proof.Machine
end

