-- ==== Sys2Proof/Machine/Dispatch.lean ====
section
/-! DEFINITION. One arm per command: what writing its word to CMD does (spec/41_buffer_and_host.md R451 to R453). -/

namespace Sys2Proof.Machine

def exec (i : Instr) (s : State) : Host.Outcome State Fault Refusal :=
  match i with
  | .nop => Sys2Proof.Machine.execNop s
  | .crcaInit => Sys2Proof.Machine.execCrcaInit s
  | .crcaByte d => Sys2Proof.Machine.execCrcaByte d s
  | .crccInit => Sys2Proof.Machine.execCrccInit s
  | .crccByte d => Sys2Proof.Machine.execCrccByte d s
  | .lrcInit => Sys2Proof.Machine.execLrcInit s
  | .lrcByte d => Sys2Proof.Machine.execLrcByte d s
  | .bufClear => Sys2Proof.Machine.execBufClear s
  | .bufPush d => Sys2Proof.Machine.execBufPush d s
  | .classify => Sys2Proof.Machine.execClassify s
  | .frScan => Sys2Proof.Machine.execFrScan s
  | .d0Cycle => Sys2Proof.Machine.execD0Cycle s

end Sys2Proof.Machine
end

