-- ==== Sys2Proof/Machine/Moves.lean ====
section
/-! DEFINITION. The agents' moves (spec/10_state.md R142): a word written to CMD is decoded and runs its command
(spec/41_buffer_and_host.md R451, R452), and the other moves of the register port, the transport and reset. -/

namespace Sys2Proof.Machine

/-- An illegal word written to CMD (spec/30_encoding.md R305, spec/60_exceptions.md R705 a and b): refused while BUSY = 1,
otherwise REJ <- 0 and RES <- ILLEGAL_CMD, nothing else. -/
def illegalCommand (s : State) : Host.Outcome State Fault Refusal := acceptCommand (State.raiseResult .illegalCmd) s

/-- A word written to CMD. The BUSY check that comes before decode (spec/60_exceptions.md R705 a) is acceptCommand's, in
each command's rule and in illegalCommand (log 8). -/
def writeCommand (v : Word) (s : State) : Host.Outcome State Fault Refusal :=
  match decodeCommand v with
  | .instr i => exec i s
  | .reservedOpcode _ => illegalCommand s
  | .operandNotZero _ _ => illegalCommand s

/-- HostWrite(addr, v) (spec/41_buffer_and_host.md R451; every other address has no effect, spec/10_state.md R118). -/
def hostWrite (addr : RegAddr) (v : Word) (s : State) : Host.Outcome State Fault Refusal :=
  match addr.toNat with
  | 0x00 => writeCommand v s
  | 0x02 => .next (s.writeConfig v)
  | 0x03 => .next (s.writeBudget v)
  | _ => .next s

/-- One move (spec/10_state.md R142). -/
def takeMove (m : Move) (s : State) : Host.Outcome State Fault Refusal :=
  match m with
  | .hostWrite addr v => hostWrite addr v s
  | .hostRead addr => .next (s.hostRead addr)
  | .hostBufRead sp i => .next (s.hostBufRead sp i)
  | .respond a => s.respond a
  | .reset => .next s.resetBlock

/-- One step: the first move of the inbox. The block never takes a step of its own, so with no move nothing changes
(spec/10_state.md R142, log 2). -/
def stepInbox (s : State) : Host.Outcome State Fault Refusal :=
  match s.inbox with
  | [] => .next s
  | m :: rest => takeMove m { s with inbox := rest }

/-- The command word w made the host's next move, in a block that is idle so that it is accepted (log 7). -/
def State.placeCommand (w : Word) (s : State) : State :=
  { s with
    inbox := .hostWrite 0x00 w :: s.inbox
    eng := .idle
    pending := none
    status := { s.status with busy := false } }

end Sys2Proof.Machine
end

