-- ==== Sys2Proof/Machine/Step.lean ====
section
/-! DEFINITION. The step function and where the host's next command word stands. -/

namespace Sys2Proof.Machine

/-- One step of the block (spec/10_state.md R142). -/
def step (s : State) : Host.Outcome State Fault Refusal := stepInbox s

/-- The command word of an opcode-table row made the host's next write to CMD (log 7). -/
def State.withFetchWord (s : State) (nbits w : Nat) : State := s.placeCommand (BitVec.ofNat 16 (w % 2 ^ nbits))

end Sys2Proof.Machine
end

