-- ==== Sys2Proof/Machine/Assembler.lean ====
section
/-! DEFINITION. What the assembler's statements stand for (spec/30_encoding.md R308, R309): what the host does, one act
after another. -/

namespace Sys2Proof.Machine

/-- One act of a host program: a move, or the loop of `wait.idle`, which reads STATUS until bit 0 of the value read is 0
(spec/30_encoding.md R309). -/
inductive HostAct where
  | move (m : Move)
  | readUntilIdle
deriving DecidableEq, Repr

/-- HostWrite(CMD, w). -/
def cmdAct (w : Word) : HostAct := .move (.hostWrite (regAddr .cmd) w)

/-- The number of a statement's operand as a byte. -/
def asByte (n : Nat) : Byte := BitVec.ofNat 8 n

/-- The number of a statement's operand as 16 bits. -/
def asWord (n : Nat) : Word := BitVec.ofNat 16 n

/-- One command a byte (spec/30_encoding.md R309). -/
def bytesActs (f : Byte → Instr) (s : List Nat) : List HostAct := s.map fun n => cmdAct (encode (f (asByte n)))

/-- The acts of a well-formed statement (spec/30_encoding.md R308, R309). -/
def statementActs : Statement → List HostAct
  | .nop => [cmdAct (encode .nop)]
  | .crcaInit => [cmdAct (encode .crcaInit)]
  | .crcaByte d => [cmdAct (encode (.crcaByte (asByte d)))]
  | .crccInit => [cmdAct (encode .crccInit)]
  | .crccByte d => [cmdAct (encode (.crccByte (asByte d)))]
  | .lrcInit => [cmdAct (encode .lrcInit)]
  | .lrcByte d => [cmdAct (encode (.lrcByte (asByte d)))]
  | .bufClear => [cmdAct (encode .bufClear)]
  | .bufPush d => [cmdAct (encode (.bufPush (asByte d)))]
  | .classify => [cmdAct (encode .classify)]
  | .frScan => [cmdAct (encode .frScan)]
  | .d0Cycle => [cmdAct (encode .d0Cycle)]
  | .wr reg v => [.move (.hostWrite (regAddr reg) (asWord v))]
  | .rd reg => [.move (.hostRead (regAddr reg))]
  | .rdb i => [.move (.hostBufRead .tbuf (asWord i))]
  | .rdi i => [.move (.hostBufRead .ibuf (asWord i))]
  | .cmd w => [cmdAct (asWord w)]
  | .crcaStr s => bytesActs .crcaByte s
  | .crccStr s => bytesActs .crccByte s
  | .lrcStr s => bytesActs .lrcByte s
  | .bufStr s => bytesActs .bufPush s
  | .crcaOf s => cmdAct (encode .crcaInit) :: bytesActs .crcaByte s
  | .crccOf s => cmdAct (encode .crccInit) :: bytesActs .crccByte s
  | .bufLoad s => cmdAct (encode .bufClear) :: bytesActs .bufPush s
  | .waitIdle => [.readUntilIdle]

/-- Assembling a statement: refused (none) unless it is well formed. -/
def assemble (st : Statement) : Option (List HostAct) := if st.wellFormed then some (statementActs st) else none

/-- Assembling a program, one statement after another; refused when one of its statements is. -/
def assembleProgram : List Statement → Option (List HostAct)
  | [] => some []
  | st :: rest =>
    match assemble st, assembleProgram rest with
    | some acts, some more => some (acts ++ more)
    | _, _ => none

end Sys2Proof.Machine
end

