-- ==== Sys2Proof/Machine/HostProgram.lean ====
section
/-! DEFINITION. A host program running beside the block (spec/30_encoding.md R308, R309): at each point the host, the
transport or the reset line takes the next move (spec/10_state.md R142), and the loop of `wait.idle` goes on as long as the
STATUS it reads shows BUSY. -/

namespace Sys2Proof.Machine

/-- The move of one turn of an act: the move it is, or one STATUS read of the loop. -/
def HostAct.asMove : HostAct → Move
  | .move m => m
  | .readUntilIdle => .hostRead (regAddr .status)

/-- The act is taken again: a loop whose STATUS read delivers a value with bit 0 set (spec/30_encoding.md R309). -/
def HostAct.again (s : State) : HostAct → Bool
  | .move _ => false
  | .readUntilIdle => (s.readReg (regAddr .status)).getLsbD 0

/-- A host program with what is left of it, and the block it drives. -/
structure HostRun where
  acts : List HostAct
  block : State
deriving DecidableEq, Repr

/-- Whose move comes next: the host program's, a response of the transport, or Reset (spec/10_state.md R142). -/
inductive Turn where
  | host
  | transport (a : Response)
  | reset
deriving DecidableEq, Repr

/-- What a move leaves of a run, given what is left of the program. -/
def leaving (acts : List HostAct) : Host.Outcome State Fault Refusal → Host.Outcome HostRun Fault Refusal
  | .next t => .next ⟨acts, t⟩
  | .fault r => .fault r
  | .refused r => .refused r

/-- One turn of a run. A program that has ended does nothing. -/
def HostRun.turn (r : HostRun) : Turn → Host.Outcome HostRun Fault Refusal
  | .host =>
    match r.acts with
    | [] => .next r
    | a :: rest => leaving (if a.again r.block then a :: rest else rest) (takeMove a.asMove r.block)
  | .transport a => leaving r.acts (takeMove (.respond a) r.block)
  | .reset => leaving r.acts (takeMove .reset r.block)

/-- Turns taken one after another. -/
def HostRun.turns : List Turn → HostRun → Host.Outcome HostRun Fault Refusal
  | [], r => .next r
  | k :: ks, r =>
    match r.turn k with
    | .next q => HostRun.turns ks q
    | .fault e => .fault e
    | .refused e => .refused e

end Sys2Proof.Machine
end

