-- ==== Sys2Proof/Safety.lean ====
section
/-! DEFINITION. What a sound state of the block is (the invariants the spec states or implies), runs of commands and of
responses, and the relations between two runs that claims use. -/

namespace Sys2Proof.Machine

/-! ### Runs -/

/-- Commands written one after another. -/
def execAll : List Instr → State → Host.Outcome State Fault Refusal
  | [], s => .next s
  | i :: is, s =>
    match exec i s with
    | .next t => execAll is t
    | .fault r => .fault r
    | .refused r => .refused r

/-- Responses given one after another. -/
def respondAll : List Response → State → Host.Outcome State Fault Refusal
  | [], s => .next s
  | a :: as, s =>
    match takeMove (.respond a) s with
    | .next t => respondAll as t
    | .fault r => .fault r
    | .refused r => .refused r

/-- A scan fed a sequence of responses: FR_SCAN, then the responses in order (spec/42_frame_scanner.md R511 a). -/
def scanRun (as : List Response) (s : State) : Host.Outcome State Fault Refusal :=
  match exec .frScan s with
  | .next t => respondAll as t
  | .fault r => .fault r
  | .refused r => .refused r

/-- Bytes delivered in answer to RX, in order. -/
def asBytes (bs : List Byte) : List Response := bs.map .byte

/-- An accepted command that wrote REJ <- 0 and RES and nothing else (spec/41_buffer_and_host.md R452). -/
def State.accepted (res : ResultCode) (s : State) : State :=
  { s with status := { s.status with rej := false, res := res } }

/-- Issuing a request changes PENDING and H only (spec/10_state.md R141). -/
def State.requested (r : Request) (s : State) : State :=
  { s with pending := some r, history := s.history ++ [r] }

/-- A multi-step command that ended with a result (spec/60_exceptions.md R703): a telegram is handed over only with OK and
LRC_MISMATCH. -/
def State.ended (res : ResultCode) (s : State) : State :=
  { s with
    status := { s.status with busy := false, res := res }
    eng := .idle
    pending := none
    bufLen := if res = .ok ∨ res = .lrcMismatch then s.bufLen else 0 }

/-- The move is the host's write of command i's word to CMD (spec/41_buffer_and_host.md R451). -/
def WritesCommand (m : Move) (i : Instr) : Prop := ∃ w, m = .hostWrite 0x00 w ∧ decodeCommand w = .instr i

/-- The move is a response while the named engine runs (spec/10_state.md R142). -/
def AnswersEngine (m : Move) (s : State) (e : Engine) : Prop := (∃ a, m = .respond a) ∧ s.eng = e

/-- A Z-form opcode written with IMM8 ≠ 0 is illegal: REJ and RES are written, nothing else (spec/30_encoding.md R305). -/
def OperandRefused (opc : Byte) : Prop :=
  ∀ (d : Byte) (s : State), d ≠ 0 → s.status.busy = false → s.eng = .idle →
    takeMove (.hostWrite 0x00 (commandWord opc d)) s = .next (s.accepted .illegalCmd)

/-- The Z-form opcodes of spec/30_encoding.md R303. -/
def zOpcodes : List Byte := [0x00, 0x01, 0x03, 0x05, 0x07, 0x09, 0x0A, 0x0B]

/-- The frame scanner waits for a byte in a phase (spec/42_frame_scanner.md R501). -/
structure State.ScanWaits (s : State) (ph : FrPhase) : Prop where
  eng : s.eng = .fr
  phase : s.frPhase = ph
  pending : s.pending = some .rx

/-- The D0 engine waits in a phase with a request pending (spec/43_d0_engine.md R602). -/
structure State.CycleWaits (s : State) (ph : D0Phase) (r : Request) : Prop where
  eng : s.eng = .d0
  phase : s.d0Phase = ph
  pending : s.pending = some r

/-! ### Invariants -/

/-- The request the phase table says is pending in the D0 phase (spec/43_d0_engine.md R602). -/
def State.phaseRequest (s : State) : Option Request :=
  match s.d0Phase with
  | .setbaud0 => some (.setbaud 0)
  | .wakeTx => some (.tx chNUL)
  | .settle => some (.wait s.cfg.tSettleMs)
  | .flush => some .flush
  | .signonTx => signonSeq[s.seqK]?.map .tx
  | .ident => some .rx
  | .baudB => some (.setbaud s.rateCode)
  | .ackTx => (ackSeq s.zchar)[s.seqK]?.map .tx
  | .ackWait => some (.wait s.cfg.tAckMs)
  | .baudC => some (.setbaud s.rateCode)
  | .tel => some .rx
  | .bccRd => some .rx
  | .signoffTx => signoffSeq[s.seqK]?.map .tx
  | .drain => some .drain

/-- The request pending while an engine is where it is (spec/42_frame_scanner.md R501, spec/43_d0_engine.md R602). -/
def State.expectedRequest (s : State) : Option Request :=
  match s.eng with
  | .idle => none
  | .fr => some .rx
  | .d0 => s.phaseRequest

/-- The phases of a D0 cycle before ModeDetect (spec/43_d0_engine.md R602). -/
def D0Phase.beforeDetect : D0Phase → Bool
  | .setbaud0 => true
  | .wakeTx => true
  | .settle => true
  | .flush => true
  | .signonTx => true
  | .ident => true
  | _ => false

/-- The phases of a D0 cycle after its block check (spec/43_d0_engine.md R602). -/
def D0Phase.afterCheck : D0Phase → Bool
  | .signoffTx => true
  | .drain => true
  | _ => false

/-- BUSY, ENG and PENDING agree (spec/10_state.md R120, R125). -/
structure State.PortInv (s : State) : Prop where
  /-- ENG = IDLE if and only if STATUS.BUSY = 0 (R120). -/
  busy_iff : s.status.busy = true ↔ s.eng ≠ .idle
  /-- PENDING ≠ none if and only if ENG ≠ IDLE (R125). -/
  pending_iff : s.pending ≠ none ↔ s.eng ≠ .idle
  /-- The pending request is the one the engine's phase names (spec/43_d0_engine.md R602). -/
  pending_eq : s.pending = s.expectedRequest
  /-- The pending request is the last one of H (spec/10_state.md R141). -/
  pending_last : ∀ r, s.pending = some r → s.history.getLast? = some r

/-- Lengths stay within the capacities and the buffers in canonical form (spec/10_state.md R111, R117, R123). -/
structure State.BufferInv (s : State) : Prop where
  params : s.cfg.wf = true
  bufLen_le : s.bufLen.toNat ≤ s.cfg.capacity
  idLen_le : s.idLen.toNat ≤ s.cfg.identCap
  tbuf_wf : s.tbuf.wf = true
  ibuf_wf : s.ibuf.wf = true
  /-- No byte is stored at an index the buffer does not have. -/
  tbuf_inside : ∀ c ∈ s.tbuf, c.1 < s.cfg.capacity
  ibuf_inside : ∀ c ∈ s.ibuf, c.1 < s.cfg.identCap

/-- The frame scanner's phases (spec/42_frame_scanner.md R502 to R506, spec/10_state.md R121). -/
structure State.ScanInv (s : State) : Prop where
  tailN_le : s.tailN ≤ 6
  hunt_empty : s.eng = .fr → s.frPhase = .hunt → s.bufLen = 0
  body_nonempty : s.eng = .fr → s.frPhase = .body → 1 ≤ s.bufLen.toNat
  tail_room : s.eng = .fr → s.frPhase = .tail → s.tailN ≤ 5 ∧ s.tailN + 2 ≤ s.bufLen.toNat
  /-- A candidate starts at its own `/` (R511 c). -/
  starts_slash : s.eng = .fr → s.frPhase ≠ .hunt → s.tbuf.read 0 = chSlash
  /-- The byte before the tail chunk is the `!`. -/
  tail_bang : s.eng = .fr → s.frPhase = .tail → s.tbuf.read (s.bufLen.toNat - s.tailN - 1) = chBang
  /-- A second byte of the chunk was stored only where the first was no CR (R506). -/
  tail_first : s.eng = .fr → s.frPhase = .tail → 2 ≤ s.tailN → s.tailByte 0 ≠ chCR

/-- The D0 engine's registers (spec/10_state.md R115, R122, spec/43_d0_engine.md R641). -/
structure State.CycleInv (s : State) : Prop where
  seqK_le : s.seqK ≤ max s.cfg.wakeCount 5
  bangCnt_le : s.bangCnt ≤ s.cfg.bangBudget
  /-- Up to the end of the telegram read the `!` budget is not used up (spec/43_d0_engine.md R653). -/
  bangCnt_lt : s.eng = .d0 → s.d0Phase.afterCheck = false → s.d0Phase ≠ .bccRd → s.bangCnt < s.cfg.bangBudget
  rateCode_le : s.rateCode ≤ 6
  baud_ne : s.d0res.mode ≠ .none → s.d0res.baud ≤ 6
  baud_none : s.d0res.mode = .none → s.d0res.baud = 7
  /-- Mode D is never produced (spec/43_d0_engine.md R620). -/
  mode_ne_d : s.d0res.mode ≠ .d
  /-- MODE is none before ModeDetect and set after it (R641). -/
  mode_before : s.eng = .d0 → (s.d0Phase.beforeDetect = true ↔ s.d0res.mode = .none)
  /-- The verdict is decided at the block check, not before (R661). -/
  verdict_before : s.eng = .d0 → s.d0Phase.afterCheck = false → s.d0res.verdict = .notApplicable
  /-- The sign-off is sent in a negotiated mode after a telegram was obtained (R670). -/
  signoff_mode : s.eng = .d0 → s.d0Phase.afterCheck = true → s.d0res.mode.isNegotiated = true ∧ s.d0res.obtained = true
  /-- The block check is read only with both markers seen (R661). -/
  check_markers : s.eng = .d0 → s.d0Phase = .bccRd →
    s.d0res.stxSeen = true ∧ s.d0res.etxSeen = true ∧ s.d0res.obtained = true

/-- A CHK other than 0 stands only with CLASS = NEW (spec/10_state.md R114, spec/40_checksum.md R413). -/
def State.ClassInv (s : State) : Prop := s.cls ≠ .new → s.chk = 0x0000

/-- The invariant of the block. -/
structure State.Inv (s : State) : Prop where
  port : s.PortInv
  buffers : s.BufferInv
  scan : s.ScanInv
  cycle : s.CycleInv
  tailClass : s.ClassInv

/-- NAK, 0x15 (spec/43_d0_engine.md R673). -/
def chNAK : Byte := 0x15

/-- No NAK was ever requested, and none can be: in the ACK phase ZCHAR is a rate digit (spec/43_d0_engine.md R631,
R673). -/
structure State.NakFree (s : State) : Prop where
  sent : Request.tx chNAK ∉ s.history
  ack_digit : s.eng = .d0 → s.d0Phase = .ackTx → isRateDigit s.zchar = true

/-! ### Relations between two states -/

/-- Two states that agree on everything but the undefined bytes: those of TBUF at or above BUFLEN and of IBUF at or above
IDLEN (spec/10_state.md R124). -/
structure SameDefined (s t : State) : Prop where
  others : { s with tbuf := t.tbuf, ibuf := t.ibuf } = t
  tbuf : ∀ i, i < s.bufLen.toNat → s.tbuf.read i = t.tbuf.read i
  ibuf : ∀ i, i < s.idLen.toNat → s.ibuf.read i = t.ibuf.read i

/-- Two outcomes related by a relation on next states; a refusal only with the same refusal. -/
def OutcomeRel (R : State → State → Prop) : Host.Outcome State Fault Refusal → Host.Outcome State Fault Refusal → Prop
  | .next s, .next t => R s t
  | .refused a, .refused b => a = b
  | _, _ => False

/-- Two scans in the same place: everything a running FR_SCAN reads or reports agrees (spec/42_frame_scanner.md R511 a).
What other commands left in the block may differ. -/
structure SameScan (s t : State) : Prop where
  capacity : s.cfg.capacity = t.cfg.capacity
  budget : s.budget = t.budget
  status : s.status.busy = t.status.busy ∧ s.status.ovf = t.status.ovf ∧
    (s.status.busy = false → s.status.res = t.status.res)
  eng : s.eng = t.eng
  frPhase : s.frPhase = t.frPhase
  tailN : s.tailN = t.tailN
  bufLen : s.bufLen = t.bufLen
  failCnt : s.failCnt = t.failCnt
  pending : s.pending = t.pending
  tbuf : ∀ i, i < s.bufLen.toNat → s.tbuf.read i = t.tbuf.read i

end Sys2Proof.Machine
end

