-- ==== Sys2Proof/Certificates/Slice0/Obligations.lean ====
section
/-! DEFINITION. The statements of this model, from the numbered rules of spec/. Statements speak of every state that meets
their hypotheses, for every value of the parameters (the cfg field, log 1), and of every choice of the host and the
transport (log 2). -/

open Sys2Proof Sys2Proof.Machine

/-! ### Encoding and decoding -/

/-- Decoding and encoding agree both ways: a word decodes to a command exactly when it is that command's encoding
(spec/30_encoding.md R303, R304). -/
def Obligations.DecodeGivesExactlyTheEncodedCommand : Prop :=
  ∀ (w : Word) (i : Instr), decodeCommand w = .instr i ↔ w = encode i

/-- An illegal word accepted while idle writes REJ <- 0 and RES <- ILLEGAL_CMD and nothing else (spec/30_encoding.md
R305). -/
def Obligations.IllegalWordOnlyReportsIllegalCmd : Prop :=
  ∀ (w : Word) (s : State), s.status.busy = false → s.eng = .idle →
    (0x0C ≤ opcode w ∨ (opcode w ∈ zOpcodes ∧ imm8 w ≠ 0)) →
    takeMove (.hostWrite 0x00 w) s = .next (s.accepted .illegalCmd)

/-- One word of each command, written out from the list under spec/30_encoding.md R303, decodes to it. -/
def Obligations.ListedWordsDecodeToTheirCommands : Prop :=
  decodeCommand 0x0000 = .instr .nop ∧ decodeCommand 0x0100 = .instr .crcaInit ∧
    decodeCommand 0x0231 = .instr (.crcaByte 0x31) ∧ decodeCommand 0x0300 = .instr .crccInit ∧
    decodeCommand 0x04FF = .instr (.crccByte 0xFF) ∧ decodeCommand 0x0500 = .instr .lrcInit ∧
    decodeCommand 0x0602 = .instr (.lrcByte 0x02) ∧ decodeCommand 0x0700 = .instr .bufClear ∧
    decodeCommand 0x082F = .instr (.bufPush 0x2F) ∧ decodeCommand 0x0900 = .instr .classify ∧
    decodeCommand 0x0A00 = .instr .frScan ∧ decodeCommand 0x0B00 = .instr .d0Cycle

/-- A step whose next move is a write of a command's word to CMD runs that command, on the state in which that move is
taken from the inbox (spec/41_buffer_and_host.md R451, R452; the inbox is the model's, log 2). -/
def Obligations.StepRunsTheWrittenCommand : Prop :=
  ∀ (s : State) (rest : List Move) (w : Word) (i : Instr),
    s.inbox = .hostWrite 0x00 w :: rest → decodeCommand w = .instr i → step s = exec i { s with inbox := rest }

/-- Every other move is taken by a step in the same way, and with no move nothing changes: the block never takes a step of
its own (spec/10_state.md R142; the inbox is the model's, log 2). -/
def Obligations.StepTakesTheNextMove : Prop :=
  (∀ (s : State) (rest : List Move) (m : Move), s.inbox = m :: rest → step s = takeMove m { s with inbox := rest }) ∧
    ∀ s : State, s.inbox = [] → step s = .next s

/-! ### Single-step commands -/

/-- NOP writes REJ <- 0 and RES <- OK and nothing else (spec/41_buffer_and_host.md R454). -/
def Obligations.NopOnlyClearsRejAndSetsOk : Prop :=
  decodeCommand 0x0000 = .instr .nop ∧
    (∀ s : State, s.status.busy = false → exec .nop s = .next (s.accepted .ok)) ∧
    OperandRefused 0x00 ∧
    ∀ s : State, s.status = { busy := false, rej := true, ovf := false, res := .illegalCmd } →
      s.status.word = 0x00A2 ∧ ∃ t, exec .nop s = .next t ∧ t.status.word = 0x0010

/-- CRCA_INIT, CRCC_INIT and LRC_INIT set their accumulator to its initial value and change nothing else
(spec/40_checksum.md R402, R405, R408). -/
def Obligations.InitCommandsSetTheirAccumulators : Prop :=
  decodeCommand 0x0100 = .instr .crcaInit ∧ decodeCommand 0x0300 = .instr .crccInit ∧
    decodeCommand 0x0500 = .instr .lrcInit ∧ OperandRefused 0x01 ∧ OperandRefused 0x03 ∧ OperandRefused 0x05 ∧
    ∀ s : State, s.status.busy = false →
      exec .crcaInit s = .next { s.accepted .ok with crca := 0x0000 } ∧
        execAll [.crcaInit, .crcaInit] s = exec .crcaInit s ∧
        exec .crccInit s = .next { s.accepted .ok with crcc := 0xFFFF } ∧
        (∀ t, exec .crccInit s = .next t →
          t.readReg 0x05 = 0xFFFF ^^^ s.cfg.ccittXorout ∧ (s.cfg.ccittXorout = 0x0000 → t.readReg 0x05 = 0xFFFF)) ∧
        exec .lrcInit s = .next { s.accepted .ok with lrc := 0xFF } ∧
        ∀ t, exec .lrcInit s = .next t → t.readReg 0x06 = 0x00FF ∧ t.readReg 0x07 = 0x0000

/-- CRCA_BYTE d feeds d into variant A: eight shift/XOR steps with polynomial 0xA001 on the accumulator XORed with the
byte; after CRCA_INIT and the bytes of bs, CRCA = crcA(bs), the left fold from 0 (spec/40_checksum.md R400, R401, R403). -/
def Obligations.CrcaByteFeedsTheByte : Prop :=
  (∀ (c : Word) (d : Byte),
    crcAStep c d = (fun x : Word => if x.getLsbD 0 then (x >>> 1) ^^^ 0xA001 else x >>> 1)^[8] (c ^^^ d.setWidth 16)) ∧
    (∀ d : Byte, decodeCommand (0x0200 ||| d.setWidth 16) = .instr (.crcaByte d)) ∧
    (∀ (d : Byte) (s : State), s.status.busy = false →
      exec (.crcaByte d) s = .next { s.accepted .ok with crca := crcAStep s.crca d }) ∧
    crcAStep 0x0000 0x00 = 0x0000 ∧ (∃ (c : Word) (d : Byte), c ≠ 0 ∧ crcAStep c d = 0x0000) ∧
    crcAStep 0x0000 0x01 = 0xC0C1 ∧ crcAStep 0x0000 0x80 = 0xA001 ∧
    ∀ (bs : List Byte) (s : State), s.status.busy = false →
      crcA bs = bs.foldl crcAStep 0x0000 ∧
        execAll (.crcaInit :: bs.map .crcaByte) s = .next { s.accepted .ok with crca := crcA bs }

/-- CRCC_BYTE d feeds d into variant C; the final XOR enters only a read (spec/40_checksum.md R404, R406). -/
def Obligations.CrccByteFeedsTheByte : Prop :=
  (∀ (c : Word) (d : Byte),
    crcCStep c d = (fun x : Word => if x.getLsbD 0 then (x >>> 1) ^^^ 0x8408 else x >>> 1)^[8] (c ^^^ d.setWidth 16)) ∧
    (∀ d : Byte, decodeCommand (0x0400 ||| d.setWidth 16) = .instr (.crccByte d)) ∧
    (∀ (d : Byte) (s : State), s.status.busy = false →
      exec (.crccByte d) s = .next { s.accepted .ok with crcc := crcCStep s.crcc d }) ∧
    crcCStep 0xFFFF 0x00 = 0x0F87 ∧ crcCStep 0xFFFF 0xFF = 0x00FF ∧
    ∀ (bs : List Byte) (s : State), s.status.busy = false →
      ∃ t, execAll (.crccInit :: bs.map .crccByte) s = .next t ∧ t.crcc = bs.foldl crcCStep 0xFFFF ∧
        t.readReg 0x05 = crcC s.cfg.ccittXorout bs

/-- LRC_BYTE d XORs d into the accumulator (spec/40_checksum.md R409). -/
def Obligations.LrcByteXorsTheByte : Prop :=
  (∀ d : Byte, decodeCommand (0x0600 ||| d.setWidth 16) = .instr (.lrcByte d)) ∧
    (∀ (d : Byte) (s : State), s.status.busy = false →
      exec (.lrcByte d) s = .next { s.accepted .ok with lrc := s.lrc ^^^ d } ∧
        (∀ t, execAll [.lrcByte d, .lrcByte d] s = .next t → t.lrc = s.lrc)) ∧
    (∀ s t : State, exec (.lrcByte 0x00) s = .next t → t.lrc = s.lrc) ∧
    (∀ (bs : List Byte) (s : State), s.status.busy = false →
      ∃ t, execAll (.lrcInit :: bs.map .lrcByte) s = .next t ∧ t.readReg 0x07 = (lrcOf bs).setWidth 16) ∧
    ∀ s : State, s.status.busy = false →
      ∃ t, execAll (.lrcInit :: [0x02, 0x61, 0x62, 0x63, 0x03].map .lrcByte) s = .next t ∧ t.lrc = 0x9E ∧
        t.readReg 0x07 = 0x0061

/-- The seed and the final XOR cancel: lrc(s) is the plain XOR of the bytes, and 0x00 of the empty sequence
(spec/40_checksum.md R407, R410). -/
def Obligations.LrcIsThePlainXorOfTheBytes : Prop :=
  (∀ s : List Byte, lrcOf s = s.foldl (fun a b => a ^^^ b) 0x00) ∧ lrcOf [] = 0x00

/-- A changed byte always changes crcA and lrc, so every single-bit corruption of the body does (spec/40_checksum.md
R415). -/
def Obligations.AnyChangedByteChangesTheChecksums : Prop :=
  ∀ (before after : List Byte) (b b' : Byte), b ≠ b' →
    crcA (before ++ b :: after) ≠ crcA (before ++ b' :: after) ∧
      lrcOf (before ++ b :: after) ≠ lrcOf (before ++ b' :: after)

/-- CLASSIFY (spec/40_checksum.md R411, R412): OLD for `!` CR LF, NEW with the CRC through the `!` for `!`, four hex
digits, CR LF, MALFORMED otherwise; nothing else changes. -/
def Obligations.ClassifyReportsTheTail : Prop :=
  decodeCommand 0x0900 = .instr .classify ∧ OperandRefused 0x09 ∧ crcA [0x2F, 0x58, 0x0D, 0x0A, 0x21] = 0xDD91 ∧
    (∀ b : Byte, isHex b = true ↔
      (0x30 ≤ b.toNat ∧ b.toNat ≤ 0x39) ∨ (0x41 ≤ b.toNat ∧ b.toNat ≤ 0x46) ∨ (0x61 ≤ b.toNat ∧ b.toNat ≤ 0x66)) ∧
    ∀ (s : State) (n : Nat), s.status.busy = false → n = s.bufLen.toNat →
      let b := fun k => s.tbuf.read (n - k)
      let old := 3 ≤ n ∧ b 3 = 0x21 ∧ b 2 = 0x0D ∧ b 1 = 0x0A
      let new := 7 ≤ n ∧ b 7 = 0x21 ∧ isHex (b 6) ∧ isHex (b 5) ∧ isHex (b 4) ∧ isHex (b 3) ∧ b 2 = 0x0D ∧ b 1 = 0x0A
      (old → exec .classify s = .next { s.accepted .ok with cls := .old, chk := 0x0000 }) ∧
        (new → exec .classify s =
          .next { s.accepted .ok with cls := .new, chk := crcA ((List.range (n - 6)).map s.tbuf.read) }) ∧
        (¬old → ¬new → exec .classify s = .next { s.accepted .ok with cls := .malformed, chk := 0x0000 }) ∧
        ¬(old ∧ new)

/-- BUF_CLEAR (spec/41_buffer_and_host.md R455): the length, CLASS and CHK are cleared, the bytes are not erased. -/
def Obligations.BufClearEmptiesTheBuffer : Prop :=
  decodeCommand 0x0700 = .instr .bufClear ∧
    (∀ s : State, s.status.busy = false →
      exec .bufClear s = .next { s.accepted .ok with bufLen := 0, cls := .none, chk := 0x0000 }) ∧
    OperandRefused 0x07

/-- BUF_PUSH d (spec/41_buffer_and_host.md R456): the byte is stored at index BUFLEN and no other byte of either buffer
changes; a full buffer reports BUFFER_OVERFLOW and changes nothing else. -/
def Obligations.BufPushAppendsOrReportsOverflow : Prop :=
  (∀ d : Byte, decodeCommand (0x0800 ||| d.setWidth 16) = .instr (.bufPush d)) ∧
    (∀ (d : Byte) (s : State), s.status.busy = false → s.eng = .idle → s.bufLen.toNat = s.cfg.capacity →
      exec (.bufPush d) s = .next (s.accepted .bufferOverflow)) ∧
    (∀ (d : Byte) (s : State), s.status.busy = false → s.bufLen.toNat ≠ s.cfg.capacity → s.tbuf.wf = true →
      ∃ t, exec (.bufPush d) s = .next t ∧
        { t with tbuf := s.tbuf } = { s.accepted .ok with bufLen := s.bufLen + 1, cls := .none, chk := 0x0000 } ∧
        t.tbuf.read s.bufLen.toNat = d ∧ (∀ a, a ≠ s.bufLen.toNat → t.tbuf.read a = s.tbuf.read a)) ∧
    ∀ (d : Byte) (s : State), s.status.busy = false → s.eng = .idle → s.cfg.capacity = 8 → s.bufLen = 0 →
      ∃ t, execAll (List.replicate 8 (.bufPush d)) s = .next t ∧ t.bufLen = 8 ∧ t.status.res = .ok ∧
        exec (.bufPush d) t = .next (t.accepted .bufferOverflow)

/-- The bytes of TBUF[0..BUFLEN-1] are those stored, in the order they were stored (spec/20_memory.md R203), here by
BUF_PUSH. -/
def Obligations.PushedBytesFormTheTelegramInOrder : Prop :=
  ∀ (s : State) (bs : List Byte), s.BufferInv → s.status.busy = false → s.bufLen.toNat + bs.length ≤ s.cfg.capacity →
    ∃ t, execAll (bs.map .bufPush) s = .next t ∧ t.telegram = s.telegram ++ bs ∧
      t.bufLen.toNat = s.bufLen.toNat + bs.length ∧ t.ibuf = s.ibuf

/-! ### Acceptance, refusal and the host port -/

/-- While BUSY = 1 a command word, legal or illegal, and a CONFIG or BUDGET write set REJ and change nothing else
(spec/41_buffer_and_host.md R453). -/
def Obligations.BusyWritesOnlySetRej : Prop :=
  ∀ (s : State), s.status.busy = true →
    (∀ i : Instr, exec i s = .next { s with status := { s.status with rej := true } }) ∧
      ∀ (a : RegAddr) (v : Word), a = 0x00 ∨ a = 0x02 ∨ a = 0x03 →
        takeMove (.hostWrite a v) s = .next { s with status := { s.status with rej := true } }

/-- A CONFIG write while idle stores v[0] into WAKE_EN, a BUDGET write all 16 bits, and nothing else changes
(spec/41_buffer_and_host.md R457, R458). -/
def Obligations.ConfigAndBudgetWritesStore : Prop :=
  ∀ (s : State) (v : Word), s.status.busy = false →
    takeMove (.hostWrite 0x02 v) s = .next { s with wakeEn := v.getLsbD 0 } ∧
      ({ s with wakeEn := v.getLsbD 0 } : State).readReg 0x02 = v &&& 0x0001 ∧
      takeMove (.hostWrite 0x03 v) s = .next { s with budget := v } ∧ ({ s with budget := v } : State).readReg 0x03 = v

/-- A write to a read-only or reserved address has no effect, and a reserved address and CMD read 0 (spec/10_state.md
R103, R118). -/
def Obligations.OtherAddressesIgnoreWrites : Prop :=
  (∀ (s : State) (a : RegAddr) (v : Word), a ≠ 0x00 → a ≠ 0x02 → a ≠ 0x03 → takeMove (.hostWrite a v) s = .next s) ∧
    ∀ (s : State) (a : RegAddr), a = 0x00 ∨ 0x0F ≤ a → s.readReg a = 0x0000

/-- What a register read delivers (spec/10_state.md R102, R104, R105, R108 to R116); it changes nothing, at any time: only
what the port delivered is recorded (spec/20_memory.md R208; the record is the model's, log 4). -/
def Obligations.RegisterReadsFollowTheMap : Prop :=
  ∀ s : State,
    (∀ a : RegAddr, takeMove (.hostRead a) s = .next { s with lastRead := some (.word (s.readReg a)) }) ∧
      (∀ k : Nat, (s.readReg 0x01).getLsbD k =
        ((k = 0 && s.status.busy) || (k = 1 && s.status.rej) || (k = 2 && s.status.ovf) ||
          (decide (4 ≤ k ∧ k ≤ 7) && s.status.res.code.getLsbD (k - 4)))) ∧
      s.readReg 0x02 = (if s.wakeEn then 0x0001 else 0x0000) ∧ s.readReg 0x03 = s.budget ∧
      s.readReg 0x04 = s.crca ∧ s.readReg 0x05 = s.crcc ^^^ s.cfg.ccittXorout ∧ s.readReg 0x06 = s.lrc.setWidth 16 ∧
      s.readReg 0x07 = (s.lrc ^^^ 0xFF).setWidth 16 ∧ s.readReg 0x08 = s.bufLen ∧ s.readReg 0x09 = s.failCnt ∧
      s.readReg 0x0A = s.cls.word ∧ s.readReg 0x0B = s.chk ∧ s.readReg 0x0E = s.idLen ∧
      (s.readReg 0x0C).toNat = s.d0res.mode.code.toNat + 16 * s.d0res.baud.toNat + 256 * s.d0res.verdict.code.toNat +
        1024 * s.d0res.stxSeen.toNat + 2048 * s.d0res.etxSeen.toNat + 4096 * s.d0res.bangSeen.toNat +
        8192 * s.d0res.obtained.toNat + 16384 * s.d0res.bccValid.toNat ∧
      (s.readReg 0x0D).toNat = 256 * s.bcc.lrcCalc.toNat + s.bcc.rxBcc.toNat

/-- The numbers software sees and the names they stand for (spec/60_exceptions.md R700, spec/10_state.md R113, R115, and
the baud table of spec/00_scope.md R9, read by rate code as spec/43_d0_engine.md R621 says). -/
def Obligations.CodesFollowTheTables : Prop :=
  [ResultCode.none, .ok, .lrcMismatch, .timeout, .budgetExceeded, .ioError, .invalidIdent, .noIdent,
      .protocolUnsupported, .bufferOverflow, .illegalCmd].map ResultCode.code = [0, 1, 2, 3, 4, 5, 6, 7, 8, 9, 10] ∧
    [TailClass.none, .old, .new, .malformed].map TailClass.word = [0, 1, 2, 3] ∧
    [Mode.none, .a, .b, .c, .d, .e].map Mode.code = [0, 1, 2, 3, 4, 5] ∧
    [Verdict.notApplicable, .ok, .failed].map Verdict.code = [0, 1, 2] ∧
    (List.range 7).map (fun k => baudRate (BitVec.ofNat 3 k)) =
      [some 300, some 600, some 1200, some 2400, some 4800, some 9600, some 19200]

/-- HostBufRead (spec/20_memory.md R202): the byte below the length, a draw up to the capacity, 0x00 beyond. The draw is
the free value of log 5; the statement holds for every value of it. -/
def Obligations.BufferReadFollowsLengthAndCapacity : Prop :=
  ∀ (s : State) (i : Word),
    (i.toNat < s.bufLen.toNat →
      takeMove (.hostBufRead .tbuf i) s = .next { s with lastRead := some (.byte (s.tbuf.read i.toNat)) }) ∧
      (s.bufLen.toNat ≤ i.toNat → i.toNat < s.cfg.capacity →
        takeMove (.hostBufRead .tbuf i) s =
          .next { s with lastRead := some (.byte (Config.freeByte s.drawCount)), drawCount := s.drawCount + 1 }) ∧
      (s.bufLen.toNat ≤ i.toNat → s.cfg.capacity ≤ i.toNat →
        takeMove (.hostBufRead .tbuf i) s = .next { s with lastRead := some (.byte 0x00) }) ∧
      (i.toNat < s.idLen.toNat →
        takeMove (.hostBufRead .ibuf i) s = .next { s with lastRead := some (.byte (s.ibuf.read i.toNat)) }) ∧
      (s.idLen.toNat ≤ i.toNat → i.toNat < s.cfg.identCap →
        takeMove (.hostBufRead .ibuf i) s =
          .next { s with lastRead := some (.byte (Config.freeByte s.drawCount)), drawCount := s.drawCount + 1 }) ∧
      (s.idLen.toNat ≤ i.toNat → s.cfg.identCap ≤ i.toNat →
        takeMove (.hostBufRead .ibuf i) s = .next { s with lastRead := some (.byte 0x00) })

/-- A response has no move when nothing is pending, and when the pending request does not admit it (spec/10_state.md R140,
R142; the refusal is the model's way to say so, log 3). -/
def Obligations.ResponsesWithoutAMoveAreRefused : Prop :=
  (∀ (s : State) (a : Response), s.pending = none → takeMove (.respond a) s = .refused .responseHasNoMove) ∧
    ∀ (s : State) (a : Response) (r : Request), s.pending = some r →
      (a = .ioerr ∧ (∃ ms, r = .wait ms)) ∨ (a ≠ .ioerr ∧ r = .rx ∧ (a = .ok ∨ a = .done)) ∨
        (r ≠ .rx ∧ ((∃ b, a = .byte b) ∨ a = .timeout)) ∨ ((∃ ms, r = .wait ms) ∧ a = .ok) ∨
        ((∀ ms, r ≠ .wait ms) ∧ a = .done) →
      takeMove (.respond a) s = .refused .responseHasNoMove

/-- Reset sets every piece of the block's state to the value of spec/70_reset_and_hazards.md R801, whatever the block was
doing. The parameters, the inbox, the last read and the draw counter are the model's own and stay (log 14). -/
def Obligations.ResetSetsEveryRegister : Prop :=
  (∀ s : State, ∃ t, takeMove .reset s = .next t ∧
    t.readReg 0x01 = 0x0000 ∧ t.readReg 0x02 = 0x0000 ∧ t.readReg 0x03 = 0x0000 ∧ t.readReg 0x04 = 0x0000 ∧
    t.crcc = 0xFFFF ∧ t.readReg 0x06 = 0x00FF ∧ t.readReg 0x07 = 0x0000 ∧ t.readReg 0x08 = 0 ∧ t.readReg 0x09 = 0 ∧
    t.readReg 0x0A = 0 ∧ t.readReg 0x0B = 0x0000 ∧ t.readReg 0x0C = 0x0070 ∧ t.readReg 0x0D = 0x0000 ∧
    t.readReg 0x0E = 0 ∧ t.eng = .idle ∧ t.frPhase = .hunt ∧ t.tailN = 0 ∧ t.d0Phase = .setbaud0 ∧ t.seqK = 0 ∧
    t.bangCnt = 0 ∧ t.rateCode = 0 ∧ t.zchar = 0x00 ∧ t.pending = none ∧ t.history = [] ∧
    t.cfg = s.cfg ∧ t.inbox = s.inbox ∧ t.lastRead = s.lastRead ∧ t.drawCount = s.drawCount) ∧
    takeMove .reset State.reset = .next State.reset

/-! ### Results -/

/-- `raise Result(code)` (spec/60_exceptions.md R703): RES; and when an engine runs, BUFLEN <- 0 unless the code is OK or
LRC_MISMATCH, ENG <- IDLE, PENDING <- none, BUSY <- 0; nothing else. -/
def Obligations.RaisingAResultEndsTheCommand : Prop :=
  ∀ (s : State) (code : ResultCode),
    (s.eng = .idle → s.raiseResult code = { s with status := { s.status with res := code } }) ∧
      (s.eng ≠ .idle → code = .ok ∨ code = .lrcMismatch →
        s.raiseResult code =
          { s with status := { s.status with busy := false, res := code }, eng := .idle, pending := none }) ∧
      (s.eng ≠ .idle → code ≠ .ok → code ≠ .lrcMismatch →
        s.raiseResult code =
          { s with
            status := { s.status with busy := false, res := code }, eng := .idle, pending := none, bufLen := 0 })

/-- STATUS.RES is written by an accepted command word and by the step that ends a running command, and by nothing else
except Reset; while a command runs RES holds the previous result (spec/60_exceptions.md R701). -/
def Obligations.ResIsWrittenOnlyWhenACommandEnds : Prop :=
  ∀ (s t : State) (m : Move), s.PortInv → takeMove m s = .next t → t.status.res ≠ s.status.res →
    m = .reset ∨ (s.status.busy = false ∧ t.status.busy = false ∧ ∃ w, m = .hostWrite 0x00 w) ∨
      (s.status.busy = true ∧ t.status.busy = false ∧ ∃ a, m = .respond a)

/-- Each register, flag and buffer is changed only by the moves its rule names (spec/10_state.md R104 to R109, R111 to
R117, R126, spec/20_memory.md R203), here for what a move other than Reset may change; RES is the statement before. The
clause on BUFLEN has the premise that BUSY, ENG and PENDING agree (an invariant of every step). -/
def Obligations.RegistersHaveOnlyTheirWriters : Prop :=
  ∀ (s t : State) (m : Move), m ≠ .reset → takeMove m s = .next t →
    (t.crca ≠ s.crca → WritesCommand m .crcaInit ∨ ∃ d, WritesCommand m (.crcaByte d)) ∧
      (t.crcc ≠ s.crcc → WritesCommand m .crccInit ∨ ∃ d, WritesCommand m (.crccByte d)) ∧
      (t.lrc ≠ s.lrc → AnswersEngine m s .d0 ∨ WritesCommand m .lrcInit ∨ WritesCommand m .d0Cycle ∨
        ∃ d, WritesCommand m (.lrcByte d)) ∧
      (t.wakeEn ≠ s.wakeEn → ∃ v, m = .hostWrite 0x02 v) ∧
      (t.budget ≠ s.budget → ∃ v, m = .hostWrite 0x03 v) ∧
      (s.PortInv → t.bufLen ≠ s.bufLen → AnswersEngine m s .fr ∨ AnswersEngine m s .d0 ∨ WritesCommand m .bufClear ∨
        WritesCommand m .frScan ∨ WritesCommand m .d0Cycle ∨ ∃ d, WritesCommand m (.bufPush d)) ∧
      (t.tbuf ≠ s.tbuf → AnswersEngine m s .fr ∨ AnswersEngine m s .d0 ∨ ∃ d, WritesCommand m (.bufPush d)) ∧
      (t.failCnt ≠ s.failCnt ∨ t.status.ovf ≠ s.status.ovf → AnswersEngine m s .fr ∨ WritesCommand m .frScan) ∧
      (t.cls ≠ s.cls ∨ t.chk ≠ s.chk → WritesCommand m .classify ∨ WritesCommand m .bufClear ∨
        WritesCommand m .frScan ∨ WritesCommand m .d0Cycle ∨ ∃ d, WritesCommand m (.bufPush d)) ∧
      (t.d0res ≠ s.d0res ∨ t.bcc ≠ s.bcc ∨ t.idLen ≠ s.idLen ∨ t.ibuf ≠ s.ibuf →
        AnswersEngine m s .d0 ∨ WritesCommand m .d0Cycle) ∧
      (t.status.rej ≠ s.status.rej →
        (s.status.busy = true ∧ t.status.rej = true ∧ ∃ a v, m = .hostWrite a v ∧ (a = 0x00 ∨ a = 0x02 ∨ a = 0x03)) ∨
          (s.status.busy = false ∧ t.status.rej = false ∧ ∃ w, m = .hostWrite 0x00 w)) ∧
      (t.status.busy ≠ s.status.busy →
        (t.status.busy = true ∧ (WritesCommand m .frScan ∨ WritesCommand m .d0Cycle)) ∨
          (t.status.busy = false ∧ (AnswersEngine m s .fr ∨ AnswersEngine m s .d0)))

/-- No command word writes a buffer byte other than BUF_PUSH's one, and no step changes the parameters
(spec/20_memory.md R203, spec/10_state.md R100). -/
def Obligations.CommandsLeaveOtherBytesAndParameters : Prop :=
  (∀ (i : Instr) (s t : State), exec i s = .next t →
    (∀ a, t.ibuf.read a = s.ibuf.read a) ∧
      ∀ a, (∀ d, i ≠ .bufPush d) ∨ a ≠ s.bufLen.toNat → t.tbuf.read a = s.tbuf.read a) ∧
    ∀ s t : State, step s = .next t → t.cfg = s.cfg

/-- The host's ParseOutcome (spec/60_exceptions.md R716): after an OK scan and CLASSIFY a new-style telegram is ok or
crc_mismatch as CHK equals the value of its four digits read most significant first; any other result gives the outcome
of its row. -/
def Obligations.OutcomesFollowTheTable : Prop :=
  (∀ s : State, s.cls = .old → s.classifiedOutcome = some .ok) ∧
    (∀ s : State, s.cls = .new → s.classifiedOutcome =
      if s.chk = hexWord (fromEnd s.telegram 6) (fromEnd s.telegram 5) (fromEnd s.telegram 4) (fromEnd s.telegram 3)
      then some .ok else some .crcMismatch) ∧
    (∀ s : State, s.cls = .malformed → s.classifiedOutcome = none) ∧
    (∀ h3 h2 h1 h0 : Byte, (hexWord h3 h2 h1 h0).toNat =
      4096 * hexValue h3 + 256 * hexValue h2 + 16 * hexValue h1 + hexValue h0) ∧
    (∀ k : Fin 10, hexValue (BitVec.ofNat 8 (0x30 + k.val)) = k.val) ∧
    (∀ k : Fin 6, hexValue (BitVec.ofNat 8 (0x41 + k.val)) = 10 + k.val ∧
      hexValue (BitVec.ofNat 8 (0x61 + k.val)) = 10 + k.val) ∧
    ResultCode.ok.outcome = some .ok ∧ ResultCode.lrcMismatch.outcome = some .lrcMismatch ∧
    [ResultCode.timeout, .budgetExceeded, .invalidIdent, .noIdent].map ResultCode.outcome =
      List.replicate 4 (some .noFrameFound) ∧
    ResultCode.bufferOverflow.outcome = some .bufferOverflow ∧
    [ResultCode.ioError, .protocolUnsupported].map ResultCode.outcome = List.replicate 2 (some .ioError)

/-! ### The frame scanner -/

/-- FR_SCAN's acceptance (spec/42_frame_scanner.md R500): the counters, flags and phase it sets, BUSY, and the first RX. -/
def Obligations.ScanStartsHunting : Prop :=
  decodeCommand 0x0A00 = .instr .frScan ∧ OperandRefused 0x0A ∧
    ∀ s : State, s.status.busy = false →
      exec .frScan s =
        .next
          (({ s with
            bufLen := 0, failCnt := 0, cls := .none, chk := 0x0000, frPhase := .hunt, tailN := 0, eng := .fr
            status := { s.status with ovf := false, rej := false, busy := true } } : State).requested .rx)

/-- A TIMEOUT or an IOERR ends a scan in every phase and drops the candidate without counting it; a byte is handled by its
phase's rule, and the next RX is issued while the scan runs (spec/42_frame_scanner.md R501). -/
def Obligations.ScanActsOnEachResponse : Prop :=
  ∀ (s : State) (ph : FrPhase), s.ScanWaits ph →
    takeMove (.respond .timeout) s = .next (s.ended .timeout) ∧
      takeMove (.respond .ioerr) s = .next (s.ended .ioError) ∧
      ∀ (b : Byte) (t : State), t = ({ s with pending := none } : State).frByte b →
        (t.eng = .fr → takeMove (.respond (.byte b)) s = .next (t.requested .rx)) ∧
          (t.eng ≠ .fr → takeMove (.respond (.byte b)) s = .next t)

/-- HUNT (spec/42_frame_scanner.md R502): a `/` starts a candidate at index 0, any other byte is one failed byte. -/
def Obligations.HuntWaitsForTheStartMarker : Prop :=
  ∀ s : State, s.ScanWaits .hunt →
    takeMove (.respond (.byte 0x2F)) s =
        .next (({ s with tbuf := s.tbuf.write 0 0x2F, bufLen := 1, frPhase := .body } : State).requested .rx) ∧
      ∀ b, b ≠ 0x2F → takeMove (.respond (.byte b)) s =
        .next (State.frContinue (({ s with pending := none } : State).failAdd 1))

/-- A `/` inside a candidate body restarts the candidate at this byte, whatever the capacity, and counts the bytes stored
before as failed (spec/42_frame_scanner.md R503). -/
def Obligations.StartMarkerInBodyRestarts : Prop :=
  ∀ s : State, s.ScanWaits .body →
    takeMove (.respond (.byte 0x2F)) s =
      .next (State.frContinue
        (State.failAdd s.bufLen.toNat { s with pending := none, tbuf := s.tbuf.write 0 0x2F, bufLen := 1 }))

/-- In BODY every byte but `/` is stored, and a stored `!` begins the tail; a byte that does not fit is an overflow
(spec/42_frame_scanner.md R504, R505). -/
def Obligations.BodyStoresEveryOtherByte : Prop :=
  ∀ (s : State) (b : Byte), s.ScanWaits .body → b ≠ 0x2F →
    (s.bufLen.toNat = s.cfg.capacity →
      takeMove (.respond (.byte b)) s = .next (State.frContinue ({ s with pending := none } : State).overflow)) ∧
      (s.bufLen.toNat ≠ s.cfg.capacity → b ≠ 0x21 →
        takeMove (.respond (.byte b)) s =
          .next (({ s with tbuf := s.tbuf.write s.bufLen.toNat b, bufLen := s.bufLen + 1 } : State).requested .rx)) ∧
      (s.bufLen.toNat ≠ s.cfg.capacity → b = 0x21 →
        takeMove (.respond (.byte b)) s =
          .next (({ s with
            tbuf := s.tbuf.write s.bufLen.toNat b, bufLen := s.bufLen + 1, frPhase := .tail, tailN := 0 } : State).requested
              .rx))

/-- The tail chunk (spec/42_frame_scanner.md R506): two bytes when the first is CR, else six; accepted as CR LF, or four
hex digits and CR LF; discarded when the complete chunk has another shape; no more RX is issued once a telegram is
accepted (R512). x is the chunk with the byte b stored as its last. -/
def Obligations.TailChunkIsCheckedWhenComplete : Prop :=
  (∀ (s : State) (b : Byte), s.ScanWaits .tail → s.bufLen.toNat = s.cfg.capacity →
    takeMove (.respond (.byte b)) s = .next (State.frContinue ({ s with pending := none } : State).overflow)) ∧
  ∀ (s u : State) (b : Byte) (x : Nat → Byte), s.ScanWaits .tail → s.bufLen.toNat ≠ s.cfg.capacity →
    u = { s with
      tbuf := s.tbuf.write s.bufLen.toNat b, bufLen := s.bufLen + 1, tailN := s.tailN + 1, pending := none } →
    x = (fun j => u.tbuf.read (u.bufLen.toNat - u.tailN + j)) →
    (u.tailN = 2 → x 0 = 0x0D → x 1 = 0x0A → takeMove (.respond (.byte b)) s = .next (u.ended .ok)) ∧
      (u.tailN = 2 → x 0 = 0x0D → x 1 ≠ 0x0A → takeMove (.respond (.byte b)) s = .next (State.frContinue u.discard)) ∧
      (u.tailN = 6 → isHex (x 0) ∧ isHex (x 1) ∧ isHex (x 2) ∧ isHex (x 3) ∧ x 4 = 0x0D ∧ x 5 = 0x0A →
        takeMove (.respond (.byte b)) s = .next (u.ended .ok)) ∧
      (u.tailN = 6 → ¬(isHex (x 0) ∧ isHex (x 1) ∧ isHex (x 2) ∧ isHex (x 3) ∧ x 4 = 0x0D ∧ x 5 = 0x0A) →
        takeMove (.respond (.byte b)) s = .next (State.frContinue u.discard)) ∧
      (u.tailN ≠ 6 → ¬(u.tailN = 2 ∧ x 0 = 0x0D) → takeMove (.respond (.byte b)) s = .next (u.requested .rx))

/-- FailAdd(k) (spec/42_frame_scanner.md R507): FAILCNT saturates at 0xFFFF, and the scan ends with BUDGET_EXCEEDED when
BUDGET is not 0 and FAILCNT is strictly over it; a BUDGET of 0xFFFF never aborts. -/
def Obligations.FailedBytesCountAgainstTheBudget : Prop :=
  ∀ (s t : State) (k : Nat), s.eng = .fr → t = { s with failCnt := BitVec.ofNat 16 (min (s.failCnt.toNat + k) 0xFFFF) } →
    (t.failCnt.toNat = min (s.failCnt.toNat + k) 0xFFFF) ∧
      (s.budget = 0 ∨ t.failCnt.toNat ≤ s.budget.toNat → s.failAdd k = t) ∧
      (s.budget ≠ 0 → s.budget.toNat < t.failCnt.toNat → s.failAdd k = t.ended .budgetExceeded) ∧
      (s.budget = 0xFFFF → s.failAdd k = t)

/-- Overflow() counts the candidate and the byte that did not fit, sets OVF and hunts again; Discard() counts the candidate
and hunts again (spec/42_frame_scanner.md R508, R509). -/
def Obligations.OverflowAndDiscardReturnToHunt : Prop :=
  ∀ s : State,
    s.overflow = State.failAdd (s.bufLen.toNat + 1)
        { s with bufLen := 0, frPhase := .hunt, tailN := 0, status := { s.status with ovf := true } } ∧
      s.discard = State.failAdd s.bufLen.toNat { s with bufLen := 0, frPhase := .hunt, tailN := 0 } ∧
      (s.eng = .fr → s.budget = 0 →
        s.overflow = { s with
          bufLen := 0, frPhase := .hunt, tailN := 0, status := { s.status with ovf := true }
          failCnt := sat16 (s.failCnt.toNat + (s.bufLen.toNat + 1)) } ∧
        s.discard = { s with
          bufLen := 0, frPhase := .hunt, tailN := 0, failCnt := sat16 (s.failCnt.toNat + s.bufLen.toNat) })

/-- Resynchronization (spec/42_frame_scanner.md R511 b): after a prefix g without `!`, a telegram that fits is returned
exactly, and FAILCNT is the length of the prefix. -/
def Obligations.ScanResynchronizesOnAValidTelegram : Prop :=
  ∀ (s : State) (g body tail : List Byte),
    s.BufferInv → s.status.busy = false →
    0x21 ∉ g → 0x2F ∉ body → 0x21 ∉ body →
    (tail = [0x0D, 0x0A] ∨
      ∃ h0 h1 h2 h3, tail = [h0, h1, h2, h3, 0x0D, 0x0A] ∧ isHex h0 ∧ isHex h1 ∧ isHex h2 ∧ isHex h3) →
    (0x2F :: body ++ 0x21 :: tail).length ≤ s.cfg.capacity →
    (s.budget = 0 ∨ g.length ≤ s.budget.toNat) →
    ∃ u, scanRun (asBytes (g ++ (0x2F :: body ++ 0x21 :: tail))) s = .next u ∧
      u.status.busy = false ∧ u.status.res = .ok ∧ u.pending = none ∧
      u.telegram = 0x2F :: body ++ 0x21 :: tail ∧ u.failCnt = sat16 g.length

/-- Idempotence (spec/42_frame_scanner.md R511 a): two scans fed the same responses with the same BUDGET and CAPACITY end
alike in RES, BUFLEN, the telegram's bytes, FAILCNT and OVF, whatever else the two blocks hold. -/
def Obligations.ScansOfTheSameStreamEndAlike : Prop :=
  ∀ (s t : State) (as : List Response),
    s.cfg.wf = true → s.tbuf.wf = true → t.tbuf.wf = true → s.status.busy = false → t.status.busy = false →
    s.cfg.capacity = t.cfg.capacity → s.budget = t.budget →
    OutcomeRel SameScan (scanRun as s) (scanRun as t)

/-- FR_SCAN only accepts the two tail shapes, so CLASSIFY after an OK scan never gives MALFORMED (spec/60_exceptions.md
R716, spec/42_frame_scanner.md R506). -/
def Obligations.AcceptedTelegramIsNeverMalformed : Prop :=
  ∀ (s t : State) (b : Byte), s.Inv → s.eng = .fr → takeMove (.respond (.byte b)) s = .next t → t.eng = .idle →
    t.status.res = .ok →
    ∃ u, exec .classify t = .next u ∧ (u.cls = .old ∨ u.cls = .new)

/-! ### The D0 engine -/

/-- D0_CYCLE's acceptance (spec/43_d0_engine.md R600). -/
def Obligations.CycleStartsAtTheSlowestRate : Prop :=
  decodeCommand 0x0B00 = .instr .d0Cycle ∧ OperandRefused 0x0B ∧
    ∀ s : State, s.status.busy = false →
      exec .d0Cycle s =
        .next
          (({ s with
            bufLen := 0, idLen := 0, cls := .none, chk := 0x0000
            d0res := {
              mode := .none, baud := 7, verdict := .notApplicable, stxSeen := false, etxSeen := false
              bangSeen := false, obtained := false, bccValid := false }
            bcc := { rxBcc := 0x00, lrcCalc := 0x00 }
            lrc := 0xFF, bangCnt := 0, eng := .d0, d0Phase := .setbaud0
            status := { s.status with rej := false, busy := true } } : State).requested (.setbaud 0))

/-- An IOERR answer to any request but WAIT ends the cycle with IO_ERROR in every phase, and empties BUFLEN even when a
telegram was obtained (spec/43_d0_engine.md R603). -/
def Obligations.CycleEndsOnAnyIoError : Prop :=
  ∀ (s : State) (ph : D0Phase) (r : Request), s.CycleWaits ph r → (∀ ms, r ≠ .wait ms) →
    takeMove (.respond .ioerr) s = .next (s.ended .ioError)

/-- Every cycle's requests start with SETBAUD(0), then (if WAKE_EN) the wake-up bytes and the settle wait, then FLUSH and
the five sign-on bytes, and then the identification read (spec/43_d0_engine.md R604 to R606, R674 a). -/
def Obligations.CycleWakesAndSignsOnInOrder : Prop :=
  ∀ s : State, s.status.busy = false →
    ∃ t u, exec .d0Cycle s = .next t ∧
      respondAll (.ok :: (if s.wakeEn then List.replicate s.cfg.wakeCount .ok ++ [.done] else []) ++
        List.replicate 6 .ok) t = .next u ∧
      u.history = s.history ++ [.setbaud 0] ++
        (if s.wakeEn then List.replicate s.cfg.wakeCount (.tx 0x00) ++ [.wait s.cfg.tSettleMs] else []) ++
        [.flush, .tx 0x2F, .tx 0x3F, .tx 0x21, .tx 0x0D, .tx 0x0A, .rx] ∧
      u.eng = .d0 ∧ u.d0Phase = .ident ∧ u.pending = some .rx

/-- The identification read (spec/43_d0_engine.md R610, R611): a first byte other than `/`, a full IBUF, an LF without CR
and a TIMEOUT end the cycle; every other byte is stored and the next one read; the LF after a CR completes the line. -/
def Obligations.IdentReadStoresOneLine : Prop :=
  ∀ (s v : State) (b : Byte), s.CycleWaits .ident .rx → s.cfg.wf = true → s.idLen.toNat ≤ s.cfg.identCap →
    v = { s with ibuf := s.ibuf.write s.idLen.toNat b, idLen := s.idLen + 1 } →
    (takeMove (.respond .timeout) s = .next (s.ended .noIdent)) ∧
      (s.idLen = 0 → b ≠ 0x2F → takeMove (.respond (.byte b)) s = .next (s.ended .invalidIdent)) ∧
      (s.idLen.toNat = s.cfg.identCap → takeMove (.respond (.byte b)) s = .next (s.ended .noIdent)) ∧
      (s.idLen.toNat ≠ s.cfg.identCap → (s.idLen = 0 → b = 0x2F) → b ≠ 0x0A →
        takeMove (.respond (.byte b)) s = .next (v.requested .rx)) ∧
      (s.idLen.toNat ≠ s.cfg.identCap → s.idLen ≠ 0 → b = 0x0A → s.ibuf.read (s.idLen.toNat - 1) ≠ 0x0D →
        takeMove (.respond (.byte b)) s = .next (v.ended .noIdent)) ∧
      (s.idLen.toNat ≠ s.cfg.identCap → s.idLen ≠ 0 → b = 0x0A → s.ibuf.read (s.idLen.toNat - 1) = 0x0D →
        takeMove (.respond (.byte b)) s = .next ({ v with pending := none } : State).detectMode)

/-- ModeDetect (spec/43_d0_engine.md R620): the 5th character selects the mode and the rate code, a `\` after a rate digit
gives mode E, and a `2` after that the HDLC refusal. -/
def Obligations.ModeDetectFollowsTheFifthCharacter : Prop :=
  ∀ cs : List Byte,
    (cs.length < 5 → modeDetect cs = .raises .invalidIdent) ∧
      ∀ z, cs[4]? = some z →
        (0x30 ≤ z.toNat → z.toNat ≤ 0x36 →
          (cs[5]? ≠ some 0x5C → modeDetect cs = .detected .c (BitVec.ofNat 3 (z.toNat - 0x30))) ∧
            (cs[5]? = some 0x5C → cs[6]? = some 0x32 → modeDetect cs = .raises .protocolUnsupported) ∧
            (cs[5]? = some 0x5C → cs[6]? ≠ some 0x32 →
              modeDetect cs = .detected .e (BitVec.ofNat 3 (z.toNat - 0x30)))) ∧
          (0x41 ≤ z.toNat → z.toNat ≤ 0x47 → modeDetect cs = .detected .b (BitVec.ofNat 3 (z.toNat - 0x41))) ∧
          (0x20 ≤ z.toNat → z.toNat ≤ 0x7E → ¬(0x30 ≤ z.toNat ∧ z.toNat ≤ 0x36) →
            ¬(0x41 ≤ z.toNat ∧ z.toNat ≤ 0x47) → modeDetect cs = .detected .a 0) ∧
          (z.toNat < 0x20 ∨ 0x7E < z.toNat → modeDetect cs = .raises .invalidIdent)

/-- A complete identification line (spec/43_d0_engine.md R630, R631, R632, R640, R641): mode B switches the rate, modes C,
D and E begin the ACK, mode A reads on, and a line ModeDetect rejects ends the cycle with MODE and BAUD untouched. -/
def Obligations.CompleteLineNegotiatesTheMode : Prop :=
  ∀ (s v : State), s.CycleWaits .ident .rx → s.BufferInv → s.idLen.toNat ≠ s.cfg.identCap → s.idLen ≠ 0 →
    s.ibuf.read (s.idLen.toNat - 1) = 0x0D →
    v = { s with ibuf := s.ibuf.write s.idLen.toNat 0x0A, idLen := s.idLen + 1 } →
    (∀ code, modeDetect (s.ibuf.firstBytes (s.idLen.toNat - 1)) = .raises code →
      takeMove (.respond (.byte 0x0A)) s = .next (v.ended code)) ∧
      ∀ (m : Mode) (k : BitVec 3) (w : State),
        modeDetect (s.ibuf.firstBytes (s.idLen.toNat - 1)) = .detected m k →
        w = { v with d0res := { s.d0res with mode := m, baud := k }, rateCode := k, zchar := s.ibuf.read 4 } →
        (m = .a → takeMove (.respond (.byte 0x0A)) s = .next (({ w with d0Phase := .tel } : State).requested .rx)) ∧
          (m = .b → takeMove (.respond (.byte 0x0A)) s =
            .next (({ w with d0Phase := .baudB } : State).requested (.setbaud k))) ∧
          (m = .c ∨ m = .d ∨ m = .e → takeMove (.respond (.byte 0x0A)) s =
            .next (({ w with d0Phase := .ackTx, seqK := 0 } : State).requested (.tx 0x06)))

/-- Modes C, D and E: the six ACK bytes carry the rate digit, then the wait, then the switch, then the telegram read
(spec/43_d0_engine.md R631); mode B: the switch, then the telegram read (R630). -/
def Obligations.AckThenWaitThenSwitch : Prop :=
  (∀ s : State, s.CycleWaits .ackTx (.tx 0x06) → s.seqK = 0 →
    ∃ t, respondAll (List.replicate 6 .ok ++ [.done, .ok]) s = .next t ∧
      t.history = s.history ++
        [.tx 0x30, .tx s.zchar, .tx 0x30, .tx 0x0D, .tx 0x0A, .wait s.cfg.tAckMs, .setbaud s.rateCode, .rx] ∧
      t.d0Phase = .tel ∧ t.eng = .d0 ∧ t.pending = some .rx) ∧
    ∀ s : State, s.CycleWaits .baudB (.setbaud s.rateCode) →
      takeMove (.respond .ok) s = .next (({ s with d0Phase := .tel } : State).requested .rx)

/-- The first STX seeds the LRC, with the STX folded in when LRC_STX_INCLUDED, and is not stored (spec/43_d0_engine.md
R650). -/
def Obligations.FirstStxSeedsTheLrc : Prop :=
  ∀ (s : State), s.CycleWaits .tel .rx → s.d0res.stxSeen = false →
    (s.d0res.bangSeen = false →
      takeMove (.respond (.byte 0x02)) s =
        .next (({ s with
          d0res := { s.d0res with stxSeen := true }
          lrc := if s.cfg.lrcStxIncluded then 0xFF ^^^ 0x02 else 0xFF } : State).requested .rx)) ∧
      (s.d0res.bangSeen = true → s.bangCnt + 1 ≠ s.cfg.bangBudget →
        takeMove (.respond (.byte 0x02)) s =
          .next (({ s with
            d0res := { s.d0res with stxSeen := true }
            lrc := if s.cfg.lrcStxIncluded then 0xFF ^^^ 0x02 else 0xFF
            bangCnt := s.bangCnt + 1 } : State).requested .rx))

/-- ETX ends the read loop with the telegram obtained and is not stored; after an STX it is folded into the LRC and the
block check is read, otherwise the LRC stays and no block check is read (spec/43_d0_engine.md R651, R660). -/
def Obligations.EtxEndsTheTelegram : Prop :=
  ∀ (s : State), s.CycleWaits .tel .rx →
    (s.d0res.stxSeen = true →
      takeMove (.respond (.byte 0x03)) s =
        .next (({ s with
          d0res := { s.d0res with etxSeen := true, obtained := true }
          lrc := s.lrc ^^^ 0x03
          bcc := { s.bcc with lrcCalc := s.lrc ^^^ 0x03 ^^^ 0xFF }
          d0Phase := .bccRd } : State).requested .rx)) ∧
      (s.d0res.stxSeen = false →
        takeMove (.respond (.byte 0x03)) s =
          .next (State.signOff
            { s with
              d0res := { s.d0res with etxSeen := true, obtained := true }
              bcc := { s.bcc with lrcCalc := s.lrc ^^^ 0xFF }
              pending := none }))

/-- Any other byte is stored at index BUFLEN and folded into the LRC only after an STX; the first `!` begins the budget;
no room ends the cycle with BUFFER_OVERFLOW (spec/43_d0_engine.md R652, R653, R655). -/
def Obligations.TelegramBytesAreStoredAndFolded : Prop :=
  ∀ (s v : State) (b : Byte), s.CycleWaits .tel .rx → b ≠ 0x03 → (b = 0x02 → s.d0res.stxSeen = true) →
    v = { s with
      tbuf := s.tbuf.write s.bufLen.toNat b, bufLen := s.bufLen + 1
      lrc := if s.d0res.stxSeen then s.lrc ^^^ b else s.lrc } →
    (s.bufLen.toNat = s.cfg.capacity → takeMove (.respond (.byte b)) s = .next (s.ended .bufferOverflow)) ∧
      (s.bufLen.toNat ≠ s.cfg.capacity → s.d0res.bangSeen = false → b ≠ 0x21 →
        takeMove (.respond (.byte b)) s = .next (v.requested .rx)) ∧
      (s.bufLen.toNat ≠ s.cfg.capacity → s.d0res.bangSeen = false → b = 0x21 →
        takeMove (.respond (.byte b)) s =
          .next (({ v with d0res := { s.d0res with bangSeen := true }, bangCnt := 0 } : State).requested .rx)) ∧
      (s.bufLen.toNat ≠ s.cfg.capacity → s.d0res.bangSeen = true → s.bangCnt + 1 ≠ s.cfg.bangBudget →
        takeMove (.respond (.byte b)) s = .next (({ v with bangCnt := s.bangCnt + 1 } : State).requested .rx))

/-- The telegram is obtained without an ETX when the `!` budget is used up, and by a TIMEOUT after a `!`; a TIMEOUT before
any `!` ends the cycle (spec/43_d0_engine.md R653, R654, R660). -/
def Obligations.BangEndsAnUnframedTelegram : Prop :=
  ∀ (s : State), s.CycleWaits .tel .rx → s.d0res.etxSeen = false →
    (s.d0res.bangSeen = false → takeMove (.respond .timeout) s = .next (s.ended .timeout)) ∧
      (s.d0res.bangSeen = true →
        takeMove (.respond .timeout) s =
          .next (State.signOff
            { s with
              d0res := { s.d0res with obtained := true }
              bcc := { s.bcc with lrcCalc := s.lrc ^^^ 0xFF }
              pending := none })) ∧
      (∀ (b l : Byte), s.d0res.bangSeen = true → s.bangCnt + 1 = s.cfg.bangBudget → b ≠ 0x03 →
        (b = 0x02 → s.d0res.stxSeen = true) →
        s.bufLen.toNat ≠ s.cfg.capacity → l = (if s.d0res.stxSeen then s.lrc ^^^ b else s.lrc) →
        takeMove (.respond (.byte b)) s =
          .next (State.signOff
            { s with
              tbuf := s.tbuf.write s.bufLen.toNat b, bufLen := s.bufLen + 1, lrc := l, bangCnt := s.bangCnt + 1
              d0res := { s.d0res with obtained := true }
              bcc := { s.bcc with lrcCalc := l ^^^ 0xFF }
              pending := none })) ∧
      ∀ l : Byte, s.d0res.bangSeen = true → s.bangCnt + 1 = s.cfg.bangBudget → s.d0res.stxSeen = false →
        l = (if s.cfg.lrcStxIncluded then 0xFF ^^^ 0x02 else 0xFF) →
        takeMove (.respond (.byte 0x02)) s =
          .next (State.signOff
            { s with
              lrc := l, bangCnt := s.bangCnt + 1
              d0res := { s.d0res with stxSeen := true, obtained := true }
              bcc := { s.bcc with lrcCalc := l ^^^ 0xFF }
              pending := none })

/-- The block check (spec/43_d0_engine.md R661, R662): a received character is kept and compared, a TIMEOUT is a failed
check; neither discards the telegram. -/
def Obligations.BlockCheckSetsTheVerdict : Prop :=
  ∀ (s : State), s.CycleWaits .bccRd .rx →
    (∀ c : Byte, takeMove (.respond (.byte c)) s =
      .next (State.signOff
        { s with
          bcc := { s.bcc with rxBcc := c }
          d0res := { s.d0res with bccValid := true, verdict := if c = s.bcc.lrcCalc then .ok else .failed }
          pending := none })) ∧
      takeMove (.respond .timeout) s =
        .next (State.signOff { s with d0res := { s.d0res with verdict := .failed }, pending := none })

/-- After a telegram is obtained: modes A and B end at once, modes C, D and E send the six sign-off bytes and drain; the
cycle then ends with LRC_MISMATCH exactly when the verdict is Failed, and keeps TBUF and BUFLEN either way
(spec/43_d0_engine.md R670, R671). -/
def Obligations.SignOffThenTerminalResult : Prop :=
  ∀ (s : State) (res : ResultCode), s.eng = .d0 → s.pending = none →
    res = (if s.d0res.verdict = .failed then .lrcMismatch else .ok) →
    (s.d0res.mode = .none ∨ s.d0res.mode = .a ∨ s.d0res.mode = .b → s.signOff = s.ended res) ∧
      (s.d0res.mode = .c ∨ s.d0res.mode = .d ∨ s.d0res.mode = .e →
        ∃ t, respondAll (List.replicate 7 .ok) s.signOff = .next t ∧ t.status.res = res ∧ t.status.busy = false ∧
          t.eng = .idle ∧ t.pending = none ∧ t.bufLen = s.bufLen ∧ t.tbuf = s.tbuf ∧ t.d0res = s.d0res ∧
          t.history = s.history ++ [.tx 0x01, .tx 0x42, .tx 0x30, .tx 0x03, .tx 0x71, .tx 0x00, .drain])

/-- A frame STX body ETX (spec/43_d0_engine.md R674 d): the body is stored after what was stored before, and LRC_CALC is
0x01 XORed with every body byte when LRC_STX_INCLUDED, 0x03 XORed with them otherwise; the block check is read next. A `!`
stored before the frame counts the STX and the body against its budget, a first `!` of the body what follows it there, and
the ETX must come before the budget is used up (R653). -/
def Obligations.FrameHasTheXorAsBlockCheck : Prop :=
  ∀ (s : State) (body : List Byte),
    s.CycleWaits .tel .rx → s.BufferInv → s.d0res.stxSeen = false →
    0x03 ∉ body → s.bufLen.toNat + body.length ≤ s.cfg.capacity →
    (s.d0res.bangSeen = true → s.bangCnt + 1 + body.length < s.cfg.bangBudget) →
    (s.d0res.bangSeen = false →
      ∀ pre post, body = pre ++ 0x21 :: post → 0x21 ∉ pre → post.length < s.cfg.bangBudget) →
    ∃ t, respondAll (asBytes (0x02 :: body ++ [0x03])) s = .next t ∧ t.CycleWaits .bccRd .rx ∧
      t.telegram = s.telegram ++ body ∧
      t.bcc.lrcCalc = body.foldl (fun a b => a ^^^ b) (if s.cfg.lrcStxIncluded then 0x01 else 0x03)

/-- An LRC mismatch never empties TBUF: the step that ends a cycle with LRC_MISMATCH leaves BUFLEN and TBUF as they were
(spec/43_d0_engine.md R674 c, R671). -/
def Obligations.LrcMismatchKeepsTheTelegram : Prop :=
  ∀ (s t : State), s.Inv → s.eng = .d0 → step s = .next t → t.eng = .idle → t.status.busy = false →
    t.status.res = .lrcMismatch → t.bufLen = s.bufLen ∧ t.tbuf = s.tbuf

/-! ### The assembler -/

/-- The assembler (spec/30_encoding.md R308, R309): each statement is the host's write or read the table gives, an operand
over 255 is rejected, and a pseudo-instruction is its expansion, statement by statement. `wait.idle` is a loop: each of
the host's turns is one STATUS read, after which the loop goes on if BUSY was 1, and what follows it is next if BUSY was
0. Whatever the other agents do between the reads, the loop is left only by a read that found BUSY = 0. (A run as a list
of turns is the model's form, log 18.) -/
def Obligations.AssemblerStatementsAreTheirMoves : Prop :=
  assemble .nop = some [.move (.hostWrite 0x00 0x0000)] ∧ assemble .crcaInit = some [.move (.hostWrite 0x00 0x0100)] ∧
    assemble .crccInit = some [.move (.hostWrite 0x00 0x0300)] ∧
    assemble .lrcInit = some [.move (.hostWrite 0x00 0x0500)] ∧
    assemble .bufClear = some [.move (.hostWrite 0x00 0x0700)] ∧
    assemble .classify = some [.move (.hostWrite 0x00 0x0900)] ∧
    assemble .frScan = some [.move (.hostWrite 0x00 0x0A00)] ∧
    assemble .d0Cycle = some [.move (.hostWrite 0x00 0x0B00)] ∧
    (∀ d : Byte, assemble (.crcaByte d.toNat) = some [.move (.hostWrite 0x00 (0x0200 ||| d.setWidth 16))] ∧
      assemble (.crccByte d.toNat) = some [.move (.hostWrite 0x00 (0x0400 ||| d.setWidth 16))] ∧
      assemble (.lrcByte d.toNat) = some [.move (.hostWrite 0x00 (0x0600 ||| d.setWidth 16))] ∧
      assemble (.bufPush d.toNat) = some [.move (.hostWrite 0x00 (0x0800 ||| d.setWidth 16))]) ∧
    (∀ n : Nat, 255 < n → assemble (.crcaByte n) = none ∧ assemble (.crccByte n) = none ∧
      assemble (.lrcByte n) = none ∧ assemble (.bufPush n) = none) ∧
    (∀ w : Word, assemble (.cmd w.toNat) = some [.move (.hostWrite 0x00 w)] ∧
      (∀ r, assemble (.wr r w.toNat) = some [.move (.hostWrite (regAddr r) w)]) ∧
      assemble (.rdb w.toNat) = some [.move (.hostBufRead .tbuf w)] ∧
      assemble (.rdi w.toNat) = some [.move (.hostBufRead .ibuf w)]) ∧
    (∀ r, assemble (.rd r) = some [.move (.hostRead (regAddr r))]) ∧
    [RegName.cmd, .status, .config, .budget, .crca, .crcc, .lrc, .lrcres, .buflen, .failcnt, .cls, .chk, .d0res, .bcc,
      .idlen].map regAddr = [0x00, 0x01, 0x02, 0x03, 0x04, 0x05, 0x06, 0x07, 0x08, 0x09, 0x0A, 0x0B, 0x0C, 0x0D, 0x0E] ∧
    assemble .waitIdle = some [.readUntilIdle] ∧
    (∀ (s t : State) (m : Move) (rest : List HostAct), takeMove m s = .next t →
      HostRun.turn ⟨.move m :: rest, s⟩ .host = .next ⟨rest, t⟩) ∧
    (∀ (s : State) (rest : List HostAct), HostRun.turn ⟨.readUntilIdle :: rest, s⟩ .host =
      .next ⟨if s.status.busy then .readUntilIdle :: rest else rest, s.hostRead 0x01⟩) ∧
    (∀ (ks : List Turn) (s : State) (rest : List HostAct) (q : HostRun),
      HostRun.turns ks ⟨.readUntilIdle :: rest, s⟩ = .next q →
        q.acts = .readUntilIdle :: rest ∨
          ∃ before after u, ks = before ++ .host :: after ∧ u.status.busy = false ∧
            HostRun.turns before ⟨.readUntilIdle :: rest, s⟩ = .next ⟨.readUntilIdle :: rest, u⟩ ∧
            HostRun.turns after ⟨rest, u.hostRead 0x01⟩ = .next q) ∧
    ∀ bs : List Byte,
      (let ns := bs.map BitVec.toNat
      assemble (.crcaStr ns) = some (bs.map fun b => .move (.hostWrite 0x00 (0x0200 ||| b.setWidth 16))) ∧
        assemble (.crccStr ns) = some (bs.map fun b => .move (.hostWrite 0x00 (0x0400 ||| b.setWidth 16))) ∧
        assemble (.lrcStr ns) = some (bs.map fun b => .move (.hostWrite 0x00 (0x0600 ||| b.setWidth 16))) ∧
        assemble (.bufStr ns) = some (bs.map fun b => .move (.hostWrite 0x00 (0x0800 ||| b.setWidth 16))) ∧
        assemble (.crcaOf ns) =
          some (.move (.hostWrite 0x00 0x0100) :: bs.map fun b => .move (.hostWrite 0x00 (0x0200 ||| b.setWidth 16))) ∧
        assemble (.crccOf ns) =
          some (.move (.hostWrite 0x00 0x0300) :: bs.map fun b => .move (.hostWrite 0x00 (0x0400 ||| b.setWidth 16))) ∧
        assemble (.bufLoad ns) =
          some (.move (.hostWrite 0x00 0x0700) :: bs.map fun b => .move (.hostWrite 0x00 (0x0800 ||| b.setWidth 16))))

/-! ### Invariants and isolation -/

/-- The reset state meets the invariant (spec/70_reset_and_hazards.md R801). -/
def Obligations.ResetStateIsSound : Prop := State.reset.Inv ∧ State.reset.NakFree

/-- Every step keeps the invariant: BUSY, ENG and PENDING agree, the lengths stay within the capacities, the buffers stay
canonical, and the engines' registers stay in their ranges (spec/10_state.md R111, R117, R120 to R122, R125,
spec/43_d0_engine.md R602, R641). -/
def Obligations.EveryStepKeepsTheInvariant : Prop :=
  ∀ s t : State, s.Inv → step s = .next t → t.Inv

/-- The engine never transmits NAK: a history without TX(0x15) stays so over every step (spec/43_d0_engine.md R673). -/
def Obligations.EveryStepStaysFreeOfNak : Prop :=
  ∀ s t : State, s.Inv → s.NakFree → step s = .next t → t.NakFree

/-- No rule reads an undefined buffer byte: two blocks that differ only in bytes at or above the lengths take the same
step and still differ only there (spec/10_state.md R124). -/
def Obligations.UndefinedBytesNeverMatter : Prop :=
  ∀ s t : State, s.Inv → t.Inv → SameDefined s t → OutcomeRel SameDefined (step s) (step t)
end

