-- ==== Sys2Proof/Laws/Decode.lean ====
section
/-! SUPPORT. The two fields of a command word. -/

namespace Sys2Proof

@[simp] theorem opcode_commandWord (opc d : Byte) : opcode (commandWord opc d) = opc := by
  ext i hi
  have h : 8 + i < 16 := by omega
  simp [opcode, commandWord, hi, h]

@[simp] theorem imm8_commandWord (opc d : Byte) : imm8 (commandWord opc d) = d := by
  ext i hi
  have h : i < 16 := by omega
  simp [imm8, commandWord, hi, h]

theorem commandWord_fields (w : Word) : commandWord (opcode w) (imm8 w) = w := by
  ext i hi
  by_cases h : i < 8
  · simp [commandWord, opcode, imm8, hi, h]
  · have h8 : 8 + (i - 8) = i := by omega
    have h9 : i - 8 < 8 := by omega
    simp [commandWord, opcode, imm8, hi, h, h8, h9]

/-- Two words with equal fields are equal. -/
theorem word_ext_fields {w v : Word} (ho : opcode w = opcode v) (hi : imm8 w = imm8 v) : w = v := by
  rw [← commandWord_fields w, ← commandWord_fields v, ho, hi]

end Sys2Proof
end

