-- ==== Sys2Proof/Laws/State.lean ====
section
/-! SUPPORT. One lemma per field per named update of the state, each true by unfolding, for simp. -/

namespace Sys2Proof.Machine

variable (s : State)

@[simp] theorem State.setRes_cfg (c : ResultCode) : (s.setRes c).cfg = s.cfg := rfl
@[simp] theorem State.setRes_status (c : ResultCode) : (s.setRes c).status = { s.status with res := c } := rfl
@[simp] theorem State.setRes_wakeEn (c : ResultCode) : (s.setRes c).wakeEn = s.wakeEn := rfl
@[simp] theorem State.setRes_budget (c : ResultCode) : (s.setRes c).budget = s.budget := rfl
@[simp] theorem State.setRes_crca (c : ResultCode) : (s.setRes c).crca = s.crca := rfl
@[simp] theorem State.setRes_crcc (c : ResultCode) : (s.setRes c).crcc = s.crcc := rfl
@[simp] theorem State.setRes_lrc (c : ResultCode) : (s.setRes c).lrc = s.lrc := rfl
@[simp] theorem State.setRes_bufLen (c : ResultCode) : (s.setRes c).bufLen = s.bufLen := rfl
@[simp] theorem State.setRes_failCnt (c : ResultCode) : (s.setRes c).failCnt = s.failCnt := rfl
@[simp] theorem State.setRes_cls (c : ResultCode) : (s.setRes c).cls = s.cls := rfl
@[simp] theorem State.setRes_chk (c : ResultCode) : (s.setRes c).chk = s.chk := rfl
@[simp] theorem State.setRes_d0res (c : ResultCode) : (s.setRes c).d0res = s.d0res := rfl
@[simp] theorem State.setRes_bcc (c : ResultCode) : (s.setRes c).bcc = s.bcc := rfl
@[simp] theorem State.setRes_idLen (c : ResultCode) : (s.setRes c).idLen = s.idLen := rfl
@[simp] theorem State.setRes_eng (c : ResultCode) : (s.setRes c).eng = s.eng := rfl
@[simp] theorem State.setRes_frPhase (c : ResultCode) : (s.setRes c).frPhase = s.frPhase := rfl
@[simp] theorem State.setRes_tailN (c : ResultCode) : (s.setRes c).tailN = s.tailN := rfl
@[simp] theorem State.setRes_d0Phase (c : ResultCode) : (s.setRes c).d0Phase = s.d0Phase := rfl
@[simp] theorem State.setRes_seqK (c : ResultCode) : (s.setRes c).seqK = s.seqK := rfl
@[simp] theorem State.setRes_bangCnt (c : ResultCode) : (s.setRes c).bangCnt = s.bangCnt := rfl
@[simp] theorem State.setRes_rateCode (c : ResultCode) : (s.setRes c).rateCode = s.rateCode := rfl
@[simp] theorem State.setRes_zchar (c : ResultCode) : (s.setRes c).zchar = s.zchar := rfl
@[simp] theorem State.setRes_tbuf (c : ResultCode) : (s.setRes c).tbuf = s.tbuf := rfl
@[simp] theorem State.setRes_ibuf (c : ResultCode) : (s.setRes c).ibuf = s.ibuf := rfl
@[simp] theorem State.setRes_pending (c : ResultCode) : (s.setRes c).pending = s.pending := rfl
@[simp] theorem State.setRes_history (c : ResultCode) : (s.setRes c).history = s.history := rfl
@[simp] theorem State.setRes_inbox (c : ResultCode) : (s.setRes c).inbox = s.inbox := rfl
@[simp] theorem State.setRes_lastRead (c : ResultCode) : (s.setRes c).lastRead = s.lastRead := rfl
@[simp] theorem State.setRes_drawCount (c : ResultCode) : (s.setRes c).drawCount = s.drawCount := rfl

@[simp] theorem State.setRej_cfg (b : Bool) : (s.setRej b).cfg = s.cfg := rfl
@[simp] theorem State.setRej_status (b : Bool) : (s.setRej b).status = { s.status with rej := b } := rfl
@[simp] theorem State.setRej_wakeEn (b : Bool) : (s.setRej b).wakeEn = s.wakeEn := rfl
@[simp] theorem State.setRej_budget (b : Bool) : (s.setRej b).budget = s.budget := rfl
@[simp] theorem State.setRej_crca (b : Bool) : (s.setRej b).crca = s.crca := rfl
@[simp] theorem State.setRej_crcc (b : Bool) : (s.setRej b).crcc = s.crcc := rfl
@[simp] theorem State.setRej_lrc (b : Bool) : (s.setRej b).lrc = s.lrc := rfl
@[simp] theorem State.setRej_bufLen (b : Bool) : (s.setRej b).bufLen = s.bufLen := rfl
@[simp] theorem State.setRej_failCnt (b : Bool) : (s.setRej b).failCnt = s.failCnt := rfl
@[simp] theorem State.setRej_cls (b : Bool) : (s.setRej b).cls = s.cls := rfl
@[simp] theorem State.setRej_chk (b : Bool) : (s.setRej b).chk = s.chk := rfl
@[simp] theorem State.setRej_d0res (b : Bool) : (s.setRej b).d0res = s.d0res := rfl
@[simp] theorem State.setRej_bcc (b : Bool) : (s.setRej b).bcc = s.bcc := rfl
@[simp] theorem State.setRej_idLen (b : Bool) : (s.setRej b).idLen = s.idLen := rfl
@[simp] theorem State.setRej_eng (b : Bool) : (s.setRej b).eng = s.eng := rfl
@[simp] theorem State.setRej_frPhase (b : Bool) : (s.setRej b).frPhase = s.frPhase := rfl
@[simp] theorem State.setRej_tailN (b : Bool) : (s.setRej b).tailN = s.tailN := rfl
@[simp] theorem State.setRej_d0Phase (b : Bool) : (s.setRej b).d0Phase = s.d0Phase := rfl
@[simp] theorem State.setRej_seqK (b : Bool) : (s.setRej b).seqK = s.seqK := rfl
@[simp] theorem State.setRej_bangCnt (b : Bool) : (s.setRej b).bangCnt = s.bangCnt := rfl
@[simp] theorem State.setRej_rateCode (b : Bool) : (s.setRej b).rateCode = s.rateCode := rfl
@[simp] theorem State.setRej_zchar (b : Bool) : (s.setRej b).zchar = s.zchar := rfl
@[simp] theorem State.setRej_tbuf (b : Bool) : (s.setRej b).tbuf = s.tbuf := rfl
@[simp] theorem State.setRej_ibuf (b : Bool) : (s.setRej b).ibuf = s.ibuf := rfl
@[simp] theorem State.setRej_pending (b : Bool) : (s.setRej b).pending = s.pending := rfl
@[simp] theorem State.setRej_history (b : Bool) : (s.setRej b).history = s.history := rfl
@[simp] theorem State.setRej_inbox (b : Bool) : (s.setRej b).inbox = s.inbox := rfl
@[simp] theorem State.setRej_lastRead (b : Bool) : (s.setRej b).lastRead = s.lastRead := rfl
@[simp] theorem State.setRej_drawCount (b : Bool) : (s.setRej b).drawCount = s.drawCount := rfl

@[simp] theorem State.endEngine_cfg (keep : Bool) : (s.endEngine keep).cfg = s.cfg := rfl
@[simp] theorem State.endEngine_status (keep : Bool) : (s.endEngine keep).status = { s.status with busy := false } := rfl
@[simp] theorem State.endEngine_wakeEn (keep : Bool) : (s.endEngine keep).wakeEn = s.wakeEn := rfl
@[simp] theorem State.endEngine_budget (keep : Bool) : (s.endEngine keep).budget = s.budget := rfl
@[simp] theorem State.endEngine_crca (keep : Bool) : (s.endEngine keep).crca = s.crca := rfl
@[simp] theorem State.endEngine_crcc (keep : Bool) : (s.endEngine keep).crcc = s.crcc := rfl
@[simp] theorem State.endEngine_lrc (keep : Bool) : (s.endEngine keep).lrc = s.lrc := rfl
@[simp] theorem State.endEngine_bufLen (keep : Bool) : (s.endEngine keep).bufLen = (if keep then s.bufLen else 0) := rfl
@[simp] theorem State.endEngine_failCnt (keep : Bool) : (s.endEngine keep).failCnt = s.failCnt := rfl
@[simp] theorem State.endEngine_cls (keep : Bool) : (s.endEngine keep).cls = s.cls := rfl
@[simp] theorem State.endEngine_chk (keep : Bool) : (s.endEngine keep).chk = s.chk := rfl
@[simp] theorem State.endEngine_d0res (keep : Bool) : (s.endEngine keep).d0res = s.d0res := rfl
@[simp] theorem State.endEngine_bcc (keep : Bool) : (s.endEngine keep).bcc = s.bcc := rfl
@[simp] theorem State.endEngine_idLen (keep : Bool) : (s.endEngine keep).idLen = s.idLen := rfl
@[simp] theorem State.endEngine_eng (keep : Bool) : (s.endEngine keep).eng = .idle := rfl
@[simp] theorem State.endEngine_frPhase (keep : Bool) : (s.endEngine keep).frPhase = s.frPhase := rfl
@[simp] theorem State.endEngine_tailN (keep : Bool) : (s.endEngine keep).tailN = s.tailN := rfl
@[simp] theorem State.endEngine_d0Phase (keep : Bool) : (s.endEngine keep).d0Phase = s.d0Phase := rfl
@[simp] theorem State.endEngine_seqK (keep : Bool) : (s.endEngine keep).seqK = s.seqK := rfl
@[simp] theorem State.endEngine_bangCnt (keep : Bool) : (s.endEngine keep).bangCnt = s.bangCnt := rfl
@[simp] theorem State.endEngine_rateCode (keep : Bool) : (s.endEngine keep).rateCode = s.rateCode := rfl
@[simp] theorem State.endEngine_zchar (keep : Bool) : (s.endEngine keep).zchar = s.zchar := rfl
@[simp] theorem State.endEngine_tbuf (keep : Bool) : (s.endEngine keep).tbuf = s.tbuf := rfl
@[simp] theorem State.endEngine_ibuf (keep : Bool) : (s.endEngine keep).ibuf = s.ibuf := rfl
@[simp] theorem State.endEngine_pending (keep : Bool) : (s.endEngine keep).pending = none := rfl
@[simp] theorem State.endEngine_history (keep : Bool) : (s.endEngine keep).history = s.history := rfl
@[simp] theorem State.endEngine_inbox (keep : Bool) : (s.endEngine keep).inbox = s.inbox := rfl
@[simp] theorem State.endEngine_lastRead (keep : Bool) : (s.endEngine keep).lastRead = s.lastRead := rfl
@[simp] theorem State.endEngine_drawCount (keep : Bool) : (s.endEngine keep).drawCount = s.drawCount := rfl

@[simp] theorem State.clearClass_cfg : (s.clearClass).cfg = s.cfg := rfl
@[simp] theorem State.clearClass_status : (s.clearClass).status = s.status := rfl
@[simp] theorem State.clearClass_wakeEn : (s.clearClass).wakeEn = s.wakeEn := rfl
@[simp] theorem State.clearClass_budget : (s.clearClass).budget = s.budget := rfl
@[simp] theorem State.clearClass_crca : (s.clearClass).crca = s.crca := rfl
@[simp] theorem State.clearClass_crcc : (s.clearClass).crcc = s.crcc := rfl
@[simp] theorem State.clearClass_lrc : (s.clearClass).lrc = s.lrc := rfl
@[simp] theorem State.clearClass_bufLen : (s.clearClass).bufLen = s.bufLen := rfl
@[simp] theorem State.clearClass_failCnt : (s.clearClass).failCnt = s.failCnt := rfl
@[simp] theorem State.clearClass_cls : (s.clearClass).cls = .none := rfl
@[simp] theorem State.clearClass_chk : (s.clearClass).chk = 0x0000 := rfl
@[simp] theorem State.clearClass_d0res : (s.clearClass).d0res = s.d0res := rfl
@[simp] theorem State.clearClass_bcc : (s.clearClass).bcc = s.bcc := rfl
@[simp] theorem State.clearClass_idLen : (s.clearClass).idLen = s.idLen := rfl
@[simp] theorem State.clearClass_eng : (s.clearClass).eng = s.eng := rfl
@[simp] theorem State.clearClass_frPhase : (s.clearClass).frPhase = s.frPhase := rfl
@[simp] theorem State.clearClass_tailN : (s.clearClass).tailN = s.tailN := rfl
@[simp] theorem State.clearClass_d0Phase : (s.clearClass).d0Phase = s.d0Phase := rfl
@[simp] theorem State.clearClass_seqK : (s.clearClass).seqK = s.seqK := rfl
@[simp] theorem State.clearClass_bangCnt : (s.clearClass).bangCnt = s.bangCnt := rfl
@[simp] theorem State.clearClass_rateCode : (s.clearClass).rateCode = s.rateCode := rfl
@[simp] theorem State.clearClass_zchar : (s.clearClass).zchar = s.zchar := rfl
@[simp] theorem State.clearClass_tbuf : (s.clearClass).tbuf = s.tbuf := rfl
@[simp] theorem State.clearClass_ibuf : (s.clearClass).ibuf = s.ibuf := rfl
@[simp] theorem State.clearClass_pending : (s.clearClass).pending = s.pending := rfl
@[simp] theorem State.clearClass_history : (s.clearClass).history = s.history := rfl
@[simp] theorem State.clearClass_inbox : (s.clearClass).inbox = s.inbox := rfl
@[simp] theorem State.clearClass_lastRead : (s.clearClass).lastRead = s.lastRead := rfl
@[simp] theorem State.clearClass_drawCount : (s.clearClass).drawCount = s.drawCount := rfl

@[simp] theorem State.issue_cfg (r : Request) : (s.issue r).cfg = s.cfg := rfl
@[simp] theorem State.issue_status (r : Request) : (s.issue r).status = s.status := rfl
@[simp] theorem State.issue_wakeEn (r : Request) : (s.issue r).wakeEn = s.wakeEn := rfl
@[simp] theorem State.issue_budget (r : Request) : (s.issue r).budget = s.budget := rfl
@[simp] theorem State.issue_crca (r : Request) : (s.issue r).crca = s.crca := rfl
@[simp] theorem State.issue_crcc (r : Request) : (s.issue r).crcc = s.crcc := rfl
@[simp] theorem State.issue_lrc (r : Request) : (s.issue r).lrc = s.lrc := rfl
@[simp] theorem State.issue_bufLen (r : Request) : (s.issue r).bufLen = s.bufLen := rfl
@[simp] theorem State.issue_failCnt (r : Request) : (s.issue r).failCnt = s.failCnt := rfl
@[simp] theorem State.issue_cls (r : Request) : (s.issue r).cls = s.cls := rfl
@[simp] theorem State.issue_chk (r : Request) : (s.issue r).chk = s.chk := rfl
@[simp] theorem State.issue_d0res (r : Request) : (s.issue r).d0res = s.d0res := rfl
@[simp] theorem State.issue_bcc (r : Request) : (s.issue r).bcc = s.bcc := rfl
@[simp] theorem State.issue_idLen (r : Request) : (s.issue r).idLen = s.idLen := rfl
@[simp] theorem State.issue_eng (r : Request) : (s.issue r).eng = s.eng := rfl
@[simp] theorem State.issue_frPhase (r : Request) : (s.issue r).frPhase = s.frPhase := rfl
@[simp] theorem State.issue_tailN (r : Request) : (s.issue r).tailN = s.tailN := rfl
@[simp] theorem State.issue_d0Phase (r : Request) : (s.issue r).d0Phase = s.d0Phase := rfl
@[simp] theorem State.issue_seqK (r : Request) : (s.issue r).seqK = s.seqK := rfl
@[simp] theorem State.issue_bangCnt (r : Request) : (s.issue r).bangCnt = s.bangCnt := rfl
@[simp] theorem State.issue_rateCode (r : Request) : (s.issue r).rateCode = s.rateCode := rfl
@[simp] theorem State.issue_zchar (r : Request) : (s.issue r).zchar = s.zchar := rfl
@[simp] theorem State.issue_tbuf (r : Request) : (s.issue r).tbuf = s.tbuf := rfl
@[simp] theorem State.issue_ibuf (r : Request) : (s.issue r).ibuf = s.ibuf := rfl
@[simp] theorem State.issue_pending (r : Request) : (s.issue r).pending = some r := rfl
@[simp] theorem State.issue_history (r : Request) : (s.issue r).history = s.history ++ [r] := rfl
@[simp] theorem State.issue_inbox (r : Request) : (s.issue r).inbox = s.inbox := rfl
@[simp] theorem State.issue_lastRead (r : Request) : (s.issue r).lastRead = s.lastRead := rfl
@[simp] theorem State.issue_drawCount (r : Request) : (s.issue r).drawCount = s.drawCount := rfl

@[simp] theorem State.appendTbuf_cfg (b : Byte) : (s.appendTbuf b).cfg = s.cfg := rfl
@[simp] theorem State.appendTbuf_status (b : Byte) : (s.appendTbuf b).status = s.status := rfl
@[simp] theorem State.appendTbuf_wakeEn (b : Byte) : (s.appendTbuf b).wakeEn = s.wakeEn := rfl
@[simp] theorem State.appendTbuf_budget (b : Byte) : (s.appendTbuf b).budget = s.budget := rfl
@[simp] theorem State.appendTbuf_crca (b : Byte) : (s.appendTbuf b).crca = s.crca := rfl
@[simp] theorem State.appendTbuf_crcc (b : Byte) : (s.appendTbuf b).crcc = s.crcc := rfl
@[simp] theorem State.appendTbuf_lrc (b : Byte) : (s.appendTbuf b).lrc = s.lrc := rfl
@[simp] theorem State.appendTbuf_bufLen (b : Byte) : (s.appendTbuf b).bufLen = s.bufLen + 1 := rfl
@[simp] theorem State.appendTbuf_failCnt (b : Byte) : (s.appendTbuf b).failCnt = s.failCnt := rfl
@[simp] theorem State.appendTbuf_cls (b : Byte) : (s.appendTbuf b).cls = s.cls := rfl
@[simp] theorem State.appendTbuf_chk (b : Byte) : (s.appendTbuf b).chk = s.chk := rfl
@[simp] theorem State.appendTbuf_d0res (b : Byte) : (s.appendTbuf b).d0res = s.d0res := rfl
@[simp] theorem State.appendTbuf_bcc (b : Byte) : (s.appendTbuf b).bcc = s.bcc := rfl
@[simp] theorem State.appendTbuf_idLen (b : Byte) : (s.appendTbuf b).idLen = s.idLen := rfl
@[simp] theorem State.appendTbuf_eng (b : Byte) : (s.appendTbuf b).eng = s.eng := rfl
@[simp] theorem State.appendTbuf_frPhase (b : Byte) : (s.appendTbuf b).frPhase = s.frPhase := rfl
@[simp] theorem State.appendTbuf_tailN (b : Byte) : (s.appendTbuf b).tailN = s.tailN := rfl
@[simp] theorem State.appendTbuf_d0Phase (b : Byte) : (s.appendTbuf b).d0Phase = s.d0Phase := rfl
@[simp] theorem State.appendTbuf_seqK (b : Byte) : (s.appendTbuf b).seqK = s.seqK := rfl
@[simp] theorem State.appendTbuf_bangCnt (b : Byte) : (s.appendTbuf b).bangCnt = s.bangCnt := rfl
@[simp] theorem State.appendTbuf_rateCode (b : Byte) : (s.appendTbuf b).rateCode = s.rateCode := rfl
@[simp] theorem State.appendTbuf_zchar (b : Byte) : (s.appendTbuf b).zchar = s.zchar := rfl
@[simp] theorem State.appendTbuf_tbuf (b : Byte) : (s.appendTbuf b).tbuf = s.tbuf.write s.bufLen.toNat b := rfl
@[simp] theorem State.appendTbuf_ibuf (b : Byte) : (s.appendTbuf b).ibuf = s.ibuf := rfl
@[simp] theorem State.appendTbuf_pending (b : Byte) : (s.appendTbuf b).pending = s.pending := rfl
@[simp] theorem State.appendTbuf_history (b : Byte) : (s.appendTbuf b).history = s.history := rfl
@[simp] theorem State.appendTbuf_inbox (b : Byte) : (s.appendTbuf b).inbox = s.inbox := rfl
@[simp] theorem State.appendTbuf_lastRead (b : Byte) : (s.appendTbuf b).lastRead = s.lastRead := rfl
@[simp] theorem State.appendTbuf_drawCount (b : Byte) : (s.appendTbuf b).drawCount = s.drawCount := rfl

@[simp] theorem State.appendIbuf_cfg (b : Byte) : (s.appendIbuf b).cfg = s.cfg := rfl
@[simp] theorem State.appendIbuf_status (b : Byte) : (s.appendIbuf b).status = s.status := rfl
@[simp] theorem State.appendIbuf_wakeEn (b : Byte) : (s.appendIbuf b).wakeEn = s.wakeEn := rfl
@[simp] theorem State.appendIbuf_budget (b : Byte) : (s.appendIbuf b).budget = s.budget := rfl
@[simp] theorem State.appendIbuf_crca (b : Byte) : (s.appendIbuf b).crca = s.crca := rfl
@[simp] theorem State.appendIbuf_crcc (b : Byte) : (s.appendIbuf b).crcc = s.crcc := rfl
@[simp] theorem State.appendIbuf_lrc (b : Byte) : (s.appendIbuf b).lrc = s.lrc := rfl
@[simp] theorem State.appendIbuf_bufLen (b : Byte) : (s.appendIbuf b).bufLen = s.bufLen := rfl
@[simp] theorem State.appendIbuf_failCnt (b : Byte) : (s.appendIbuf b).failCnt = s.failCnt := rfl
@[simp] theorem State.appendIbuf_cls (b : Byte) : (s.appendIbuf b).cls = s.cls := rfl
@[simp] theorem State.appendIbuf_chk (b : Byte) : (s.appendIbuf b).chk = s.chk := rfl
@[simp] theorem State.appendIbuf_d0res (b : Byte) : (s.appendIbuf b).d0res = s.d0res := rfl
@[simp] theorem State.appendIbuf_bcc (b : Byte) : (s.appendIbuf b).bcc = s.bcc := rfl
@[simp] theorem State.appendIbuf_idLen (b : Byte) : (s.appendIbuf b).idLen = s.idLen + 1 := rfl
@[simp] theorem State.appendIbuf_eng (b : Byte) : (s.appendIbuf b).eng = s.eng := rfl
@[simp] theorem State.appendIbuf_frPhase (b : Byte) : (s.appendIbuf b).frPhase = s.frPhase := rfl
@[simp] theorem State.appendIbuf_tailN (b : Byte) : (s.appendIbuf b).tailN = s.tailN := rfl
@[simp] theorem State.appendIbuf_d0Phase (b : Byte) : (s.appendIbuf b).d0Phase = s.d0Phase := rfl
@[simp] theorem State.appendIbuf_seqK (b : Byte) : (s.appendIbuf b).seqK = s.seqK := rfl
@[simp] theorem State.appendIbuf_bangCnt (b : Byte) : (s.appendIbuf b).bangCnt = s.bangCnt := rfl
@[simp] theorem State.appendIbuf_rateCode (b : Byte) : (s.appendIbuf b).rateCode = s.rateCode := rfl
@[simp] theorem State.appendIbuf_zchar (b : Byte) : (s.appendIbuf b).zchar = s.zchar := rfl
@[simp] theorem State.appendIbuf_tbuf (b : Byte) : (s.appendIbuf b).tbuf = s.tbuf := rfl
@[simp] theorem State.appendIbuf_ibuf (b : Byte) : (s.appendIbuf b).ibuf = s.ibuf.write s.idLen.toNat b := rfl
@[simp] theorem State.appendIbuf_pending (b : Byte) : (s.appendIbuf b).pending = s.pending := rfl
@[simp] theorem State.appendIbuf_history (b : Byte) : (s.appendIbuf b).history = s.history := rfl
@[simp] theorem State.appendIbuf_inbox (b : Byte) : (s.appendIbuf b).inbox = s.inbox := rfl
@[simp] theorem State.appendIbuf_lastRead (b : Byte) : (s.appendIbuf b).lastRead = s.lastRead := rfl
@[simp] theorem State.appendIbuf_drawCount (b : Byte) : (s.appendIbuf b).drawCount = s.drawCount := rfl

@[simp] theorem State.startCandidate_cfg (b : Byte) : (s.startCandidate b).cfg = s.cfg := rfl
@[simp] theorem State.startCandidate_status (b : Byte) : (s.startCandidate b).status = s.status := rfl
@[simp] theorem State.startCandidate_wakeEn (b : Byte) : (s.startCandidate b).wakeEn = s.wakeEn := rfl
@[simp] theorem State.startCandidate_budget (b : Byte) : (s.startCandidate b).budget = s.budget := rfl
@[simp] theorem State.startCandidate_crca (b : Byte) : (s.startCandidate b).crca = s.crca := rfl
@[simp] theorem State.startCandidate_crcc (b : Byte) : (s.startCandidate b).crcc = s.crcc := rfl
@[simp] theorem State.startCandidate_lrc (b : Byte) : (s.startCandidate b).lrc = s.lrc := rfl
@[simp] theorem State.startCandidate_bufLen (b : Byte) : (s.startCandidate b).bufLen = 1 := rfl
@[simp] theorem State.startCandidate_failCnt (b : Byte) : (s.startCandidate b).failCnt = s.failCnt := rfl
@[simp] theorem State.startCandidate_cls (b : Byte) : (s.startCandidate b).cls = s.cls := rfl
@[simp] theorem State.startCandidate_chk (b : Byte) : (s.startCandidate b).chk = s.chk := rfl
@[simp] theorem State.startCandidate_d0res (b : Byte) : (s.startCandidate b).d0res = s.d0res := rfl
@[simp] theorem State.startCandidate_bcc (b : Byte) : (s.startCandidate b).bcc = s.bcc := rfl
@[simp] theorem State.startCandidate_idLen (b : Byte) : (s.startCandidate b).idLen = s.idLen := rfl
@[simp] theorem State.startCandidate_eng (b : Byte) : (s.startCandidate b).eng = s.eng := rfl
@[simp] theorem State.startCandidate_frPhase (b : Byte) : (s.startCandidate b).frPhase = .body := rfl
@[simp] theorem State.startCandidate_tailN (b : Byte) : (s.startCandidate b).tailN = s.tailN := rfl
@[simp] theorem State.startCandidate_d0Phase (b : Byte) : (s.startCandidate b).d0Phase = s.d0Phase := rfl
@[simp] theorem State.startCandidate_seqK (b : Byte) : (s.startCandidate b).seqK = s.seqK := rfl
@[simp] theorem State.startCandidate_bangCnt (b : Byte) : (s.startCandidate b).bangCnt = s.bangCnt := rfl
@[simp] theorem State.startCandidate_rateCode (b : Byte) : (s.startCandidate b).rateCode = s.rateCode := rfl
@[simp] theorem State.startCandidate_zchar (b : Byte) : (s.startCandidate b).zchar = s.zchar := rfl
@[simp] theorem State.startCandidate_tbuf (b : Byte) : (s.startCandidate b).tbuf = s.tbuf.write 0 b := rfl
@[simp] theorem State.startCandidate_ibuf (b : Byte) : (s.startCandidate b).ibuf = s.ibuf := rfl
@[simp] theorem State.startCandidate_pending (b : Byte) : (s.startCandidate b).pending = s.pending := rfl
@[simp] theorem State.startCandidate_history (b : Byte) : (s.startCandidate b).history = s.history := rfl
@[simp] theorem State.startCandidate_inbox (b : Byte) : (s.startCandidate b).inbox = s.inbox := rfl
@[simp] theorem State.startCandidate_lastRead (b : Byte) : (s.startCandidate b).lastRead = s.lastRead := rfl
@[simp] theorem State.startCandidate_drawCount (b : Byte) : (s.startCandidate b).drawCount = s.drawCount := rfl

@[simp] theorem State.enterPhase_cfg (ph : D0Phase) (r : Request) : (s.enterPhase ph r).cfg = s.cfg := rfl
@[simp] theorem State.enterPhase_status (ph : D0Phase) (r : Request) : (s.enterPhase ph r).status = s.status := rfl
@[simp] theorem State.enterPhase_wakeEn (ph : D0Phase) (r : Request) : (s.enterPhase ph r).wakeEn = s.wakeEn := rfl
@[simp] theorem State.enterPhase_budget (ph : D0Phase) (r : Request) : (s.enterPhase ph r).budget = s.budget := rfl
@[simp] theorem State.enterPhase_crca (ph : D0Phase) (r : Request) : (s.enterPhase ph r).crca = s.crca := rfl
@[simp] theorem State.enterPhase_crcc (ph : D0Phase) (r : Request) : (s.enterPhase ph r).crcc = s.crcc := rfl
@[simp] theorem State.enterPhase_lrc (ph : D0Phase) (r : Request) : (s.enterPhase ph r).lrc = s.lrc := rfl
@[simp] theorem State.enterPhase_bufLen (ph : D0Phase) (r : Request) : (s.enterPhase ph r).bufLen = s.bufLen := rfl
@[simp] theorem State.enterPhase_failCnt (ph : D0Phase) (r : Request) : (s.enterPhase ph r).failCnt = s.failCnt := rfl
@[simp] theorem State.enterPhase_cls (ph : D0Phase) (r : Request) : (s.enterPhase ph r).cls = s.cls := rfl
@[simp] theorem State.enterPhase_chk (ph : D0Phase) (r : Request) : (s.enterPhase ph r).chk = s.chk := rfl
@[simp] theorem State.enterPhase_d0res (ph : D0Phase) (r : Request) : (s.enterPhase ph r).d0res = s.d0res := rfl
@[simp] theorem State.enterPhase_bcc (ph : D0Phase) (r : Request) : (s.enterPhase ph r).bcc = s.bcc := rfl
@[simp] theorem State.enterPhase_idLen (ph : D0Phase) (r : Request) : (s.enterPhase ph r).idLen = s.idLen := rfl
@[simp] theorem State.enterPhase_eng (ph : D0Phase) (r : Request) : (s.enterPhase ph r).eng = s.eng := rfl
@[simp] theorem State.enterPhase_frPhase (ph : D0Phase) (r : Request) : (s.enterPhase ph r).frPhase = s.frPhase := rfl
@[simp] theorem State.enterPhase_tailN (ph : D0Phase) (r : Request) : (s.enterPhase ph r).tailN = s.tailN := rfl
@[simp] theorem State.enterPhase_d0Phase (ph : D0Phase) (r : Request) : (s.enterPhase ph r).d0Phase = ph := rfl
@[simp] theorem State.enterPhase_seqK (ph : D0Phase) (r : Request) : (s.enterPhase ph r).seqK = s.seqK := rfl
@[simp] theorem State.enterPhase_bangCnt (ph : D0Phase) (r : Request) : (s.enterPhase ph r).bangCnt = s.bangCnt := rfl
@[simp] theorem State.enterPhase_rateCode (ph : D0Phase) (r : Request) : (s.enterPhase ph r).rateCode = s.rateCode := rfl
@[simp] theorem State.enterPhase_zchar (ph : D0Phase) (r : Request) : (s.enterPhase ph r).zchar = s.zchar := rfl
@[simp] theorem State.enterPhase_tbuf (ph : D0Phase) (r : Request) : (s.enterPhase ph r).tbuf = s.tbuf := rfl
@[simp] theorem State.enterPhase_ibuf (ph : D0Phase) (r : Request) : (s.enterPhase ph r).ibuf = s.ibuf := rfl
@[simp] theorem State.enterPhase_pending (ph : D0Phase) (r : Request) : (s.enterPhase ph r).pending = some r := rfl
@[simp] theorem State.enterPhase_history (ph : D0Phase) (r : Request) : (s.enterPhase ph r).history = s.history ++ [r] := rfl
@[simp] theorem State.enterPhase_inbox (ph : D0Phase) (r : Request) : (s.enterPhase ph r).inbox = s.inbox := rfl
@[simp] theorem State.enterPhase_lastRead (ph : D0Phase) (r : Request) : (s.enterPhase ph r).lastRead = s.lastRead := rfl
@[simp] theorem State.enterPhase_drawCount (ph : D0Phase) (r : Request) : (s.enterPhase ph r).drawCount = s.drawCount := rfl

@[simp] theorem State.answered_cfg : s.answered.cfg = s.cfg := rfl
@[simp] theorem State.answered_status : s.answered.status = s.status := rfl
@[simp] theorem State.answered_wakeEn : s.answered.wakeEn = s.wakeEn := rfl
@[simp] theorem State.answered_budget : s.answered.budget = s.budget := rfl
@[simp] theorem State.answered_crca : s.answered.crca = s.crca := rfl
@[simp] theorem State.answered_crcc : s.answered.crcc = s.crcc := rfl
@[simp] theorem State.answered_lrc : s.answered.lrc = s.lrc := rfl
@[simp] theorem State.answered_bufLen : s.answered.bufLen = s.bufLen := rfl
@[simp] theorem State.answered_failCnt : s.answered.failCnt = s.failCnt := rfl
@[simp] theorem State.answered_cls : s.answered.cls = s.cls := rfl
@[simp] theorem State.answered_chk : s.answered.chk = s.chk := rfl
@[simp] theorem State.answered_d0res : s.answered.d0res = s.d0res := rfl
@[simp] theorem State.answered_bcc : s.answered.bcc = s.bcc := rfl
@[simp] theorem State.answered_idLen : s.answered.idLen = s.idLen := rfl
@[simp] theorem State.answered_eng : s.answered.eng = s.eng := rfl
@[simp] theorem State.answered_frPhase : s.answered.frPhase = s.frPhase := rfl
@[simp] theorem State.answered_tailN : s.answered.tailN = s.tailN := rfl
@[simp] theorem State.answered_d0Phase : s.answered.d0Phase = s.d0Phase := rfl
@[simp] theorem State.answered_seqK : s.answered.seqK = s.seqK := rfl
@[simp] theorem State.answered_bangCnt : s.answered.bangCnt = s.bangCnt := rfl
@[simp] theorem State.answered_rateCode : s.answered.rateCode = s.rateCode := rfl
@[simp] theorem State.answered_zchar : s.answered.zchar = s.zchar := rfl
@[simp] theorem State.answered_tbuf : s.answered.tbuf = s.tbuf := rfl
@[simp] theorem State.answered_ibuf : s.answered.ibuf = s.ibuf := rfl
@[simp] theorem State.answered_pending : s.answered.pending = Option.none := rfl
@[simp] theorem State.answered_history : s.answered.history = s.history := rfl
@[simp] theorem State.answered_inbox : s.answered.inbox = s.inbox := rfl
@[simp] theorem State.answered_lastRead : s.answered.lastRead = s.lastRead := rfl
@[simp] theorem State.answered_drawCount : s.answered.drawCount = s.drawCount := rfl

/-! What raising a result never writes (spec/60_exceptions.md R703). -/

@[simp] theorem State.raiseResult_cfg (c : ResultCode) : (s.raiseResult c).cfg = s.cfg := by
  unfold State.raiseResult; split <;> rfl
@[simp] theorem State.raiseResult_wakeEn (c : ResultCode) : (s.raiseResult c).wakeEn = s.wakeEn := by
  unfold State.raiseResult; split <;> rfl
@[simp] theorem State.raiseResult_budget (c : ResultCode) : (s.raiseResult c).budget = s.budget := by
  unfold State.raiseResult; split <;> rfl
@[simp] theorem State.raiseResult_crca (c : ResultCode) : (s.raiseResult c).crca = s.crca := by
  unfold State.raiseResult; split <;> rfl
@[simp] theorem State.raiseResult_crcc (c : ResultCode) : (s.raiseResult c).crcc = s.crcc := by
  unfold State.raiseResult; split <;> rfl
@[simp] theorem State.raiseResult_lrc (c : ResultCode) : (s.raiseResult c).lrc = s.lrc := by
  unfold State.raiseResult; split <;> rfl
@[simp] theorem State.raiseResult_failCnt (c : ResultCode) : (s.raiseResult c).failCnt = s.failCnt := by
  unfold State.raiseResult; split <;> rfl
@[simp] theorem State.raiseResult_cls (c : ResultCode) : (s.raiseResult c).cls = s.cls := by
  unfold State.raiseResult; split <;> rfl
@[simp] theorem State.raiseResult_chk (c : ResultCode) : (s.raiseResult c).chk = s.chk := by
  unfold State.raiseResult; split <;> rfl
@[simp] theorem State.raiseResult_d0res (c : ResultCode) : (s.raiseResult c).d0res = s.d0res := by
  unfold State.raiseResult; split <;> rfl
@[simp] theorem State.raiseResult_bcc (c : ResultCode) : (s.raiseResult c).bcc = s.bcc := by
  unfold State.raiseResult; split <;> rfl
@[simp] theorem State.raiseResult_idLen (c : ResultCode) : (s.raiseResult c).idLen = s.idLen := by
  unfold State.raiseResult; split <;> rfl
@[simp] theorem State.raiseResult_frPhase (c : ResultCode) : (s.raiseResult c).frPhase = s.frPhase := by
  unfold State.raiseResult; split <;> rfl
@[simp] theorem State.raiseResult_tailN (c : ResultCode) : (s.raiseResult c).tailN = s.tailN := by
  unfold State.raiseResult; split <;> rfl
@[simp] theorem State.raiseResult_d0Phase (c : ResultCode) : (s.raiseResult c).d0Phase = s.d0Phase := by
  unfold State.raiseResult; split <;> rfl
@[simp] theorem State.raiseResult_seqK (c : ResultCode) : (s.raiseResult c).seqK = s.seqK := by
  unfold State.raiseResult; split <;> rfl
@[simp] theorem State.raiseResult_bangCnt (c : ResultCode) : (s.raiseResult c).bangCnt = s.bangCnt := by
  unfold State.raiseResult; split <;> rfl
@[simp] theorem State.raiseResult_rateCode (c : ResultCode) : (s.raiseResult c).rateCode = s.rateCode := by
  unfold State.raiseResult; split <;> rfl
@[simp] theorem State.raiseResult_zchar (c : ResultCode) : (s.raiseResult c).zchar = s.zchar := by
  unfold State.raiseResult; split <;> rfl
@[simp] theorem State.raiseResult_tbuf (c : ResultCode) : (s.raiseResult c).tbuf = s.tbuf := by
  unfold State.raiseResult; split <;> rfl
@[simp] theorem State.raiseResult_ibuf (c : ResultCode) : (s.raiseResult c).ibuf = s.ibuf := by
  unfold State.raiseResult; split <;> rfl
@[simp] theorem State.raiseResult_history (c : ResultCode) : (s.raiseResult c).history = s.history := by
  unfold State.raiseResult; split <;> rfl
@[simp] theorem State.raiseResult_inbox (c : ResultCode) : (s.raiseResult c).inbox = s.inbox := by
  unfold State.raiseResult; split <;> rfl
@[simp] theorem State.raiseResult_lastRead (c : ResultCode) : (s.raiseResult c).lastRead = s.lastRead := by
  unfold State.raiseResult; split <;> rfl
@[simp] theorem State.raiseResult_drawCount (c : ResultCode) : (s.raiseResult c).drawCount = s.drawCount := by
  unfold State.raiseResult; split <;> rfl

end Sys2Proof.Machine
end

