-- ==== Sys2Proof/Laws/Ops.lean ====
section
/-! SUPPORT. What each shared operation can do, said once: accepting a command, raising a result, answering a request,
counting failed bytes, sending a sequence. -/

namespace Sys2Proof.Machine

variable {s t : State}

/-! ### Accepting a command -/

theorem acceptCommand_of_idle (rule : State → State) (h : s.status.busy = false) :
    acceptCommand rule s = .next (rule (s.setRej false)) := by
  simp [acceptCommand, h]

theorem acceptCommand_of_busy (rule : State → State) (h : s.status.busy = true) :
    acceptCommand rule s = .next (s.setRej true) := by
  simp [acceptCommand, h, State.refuse]

/-- Every command either refuses, or accepts and runs its rule. -/
theorem acceptCommand_next {rule : State → State} (h : acceptCommand rule s = .next t) :
    (s.status.busy = true ∧ t = s.setRej true) ∨ (s.status.busy = false ∧ t = rule (s.setRej false)) := by
  cases hb : s.status.busy with
  | true => rw [acceptCommand_of_busy rule hb] at h; cases h; exact .inl ⟨rfl, rfl⟩
  | false => rw [acceptCommand_of_idle rule hb] at h; cases h; exact .inr ⟨rfl, rfl⟩

/-! ### Raising a result -/

theorem State.raiseResult_of_idle (code : ResultCode) (h : s.eng = .idle) : s.raiseResult code = s.setRes code := by
  simp [State.raiseResult, h]

theorem ResultCode.keepsTelegram_iff (code : ResultCode) :
    code.keepsTelegram = true ↔ code = .ok ∨ code = .lrcMismatch := by
  cases code <;> simp [ResultCode.keepsTelegram]

/-- A running command that raises a result has ended with it. -/
theorem State.raiseResult_of_running (code : ResultCode) (h : s.eng ≠ .idle) : s.raiseResult code = s.ended code := by
  have hk := code.keepsTelegram_iff
  by_cases hc : code = .ok ∨ code = .lrcMismatch
  · simp [State.raiseResult, h, State.ended, State.setRes, State.endEngine, hc, hk.2 hc]
  · have : code.keepsTelegram = false := by
      cases hv : code.keepsTelegram
      · rfl
      · exact absurd (hk.1 hv) hc
    simp [State.raiseResult, h, State.ended, State.setRes, State.endEngine, hc, this]

@[simp] theorem State.raiseResult_eng (code : ResultCode) : (s.raiseResult code).eng = .idle := by
  by_cases h : s.eng = .idle
  · simp [State.raiseResult, h]
  · simp [State.raiseResult, h]

/-! ### Requests -/

theorem State.issue_eq_requested (r : Request) (s : State) : s.issue r = s.requested r := rfl

theorem State.enterPhase_eq_requested (ph : D0Phase) (r : Request) (s : State) :
    s.enterPhase ph r = ({ s with d0Phase := ph } : State).requested r := rfl

/-- An admissible response that the engine consumes is a step. -/
theorem respond_of_consumed {a : Response} {r : Request} (hp : s.pending = some r) (ha : admits r a = true)
    (hc : s.answered.engineConsume a = some t) : s.respond a = .next t := by
  simp [State.respond, hp, ha, hc]

/-- A Respond step that is taken had an admissible response, which the engine consumed. -/
theorem respond_next {a : Response} (h : s.respond a = .next t) :
    ∃ r, s.pending = some r ∧ admits r a = true ∧
      s.answered.engineConsume a = some t := by
  unfold State.respond at h
  split at h
  · cases h
  · rename_i r hr
    split at h
    · rename_i ha
      split at h
      · rename_i u hu
        cases h
        exact ⟨r, hr, ha, hu⟩
      · cases h
    · cases h

/-- The frame scanner's responses. -/
theorem frRespond_some {a : Response} (h : s.frRespond a = some t) :
    (a = .timeout ∧ t = s.raiseResult .timeout) ∨ (a = .ioerr ∧ t = s.raiseResult .ioError) ∨
      ∃ b, a = .byte b ∧ t = (s.frByte b).frContinue := by
  cases a <;> simp_all [State.frRespond]

/-! ### Failed bytes -/

/-- FailAdd either counts, or counts and ends the scan over budget. -/
theorem State.failAdd_cases (k : Nat) (s : State) :
    (s.failAdd k = { s with failCnt := sat16 (s.failCnt.toNat + k) } ∧
        (s.budget = 0 ∨ sat16 (s.failCnt.toNat + k) ≤ s.budget)) ∨
      (s.failAdd k = ({ s with failCnt := sat16 (s.failCnt.toNat + k) } : State).raiseResult .budgetExceeded ∧
        s.budget ≠ 0 ∧ s.budget < sat16 (s.failCnt.toNat + k)) := by
  by_cases h0 : s.budget = 0
  · left; simp [State.failAdd, State.overBudget, h0]
  · have h0' : ¬s.budget = 0#16 := h0
    by_cases h1 : s.budget < sat16 (s.failCnt.toNat + k)
    · right; exact ⟨by simp [State.failAdd, State.overBudget, h0', h1], h0, h1⟩
    · left; exact ⟨by simp [State.failAdd, State.overBudget, h1], .inr (BitVec.not_lt.1 h1)⟩

theorem sat16_toNat (n : Nat) : (sat16 n).toNat = min n 0xFFFF := by
  simp only [sat16, BitVec.toNat_ofNat]
  exact Nat.mod_eq_of_lt (by omega)

theorem sat16_add (a b : Nat) : sat16 ((sat16 a).toNat + b) = sat16 (a + b) := by
  apply BitVec.eq_of_toNat_eq
  simp only [sat16_toNat]
  omega

/-! ### Sequences of bytes -/

theorem State.sendFrom_of_lt {seq : List Byte} {k : Nat} (h : k < seq.length) (ph : D0Phase) (after : State → State)
    (s : State) : s.sendFrom ph seq after k = State.enterPhase ph (.tx seq[k]) { s with seqK := k } := by
  simp [State.sendFrom, h]

theorem State.sendFrom_of_le {seq : List Byte} {k : Nat} (h : seq.length ≤ k) (ph : D0Phase) (after : State → State)
    (s : State) : s.sendFrom ph seq after k = after s := by
  simp [State.sendFrom, h]

/-! ### Appending -/

theorem State.tbufFull_iff (s : State) : s.tbufFull = true ↔ s.bufLen.toNat = s.cfg.capacity := by simp [State.tbufFull]

theorem State.ibufFull_iff (s : State) : s.ibufFull = true ↔ s.idLen.toNat = s.cfg.identCap := by simp [State.ibufFull]

theorem State.appendTbuf_bufLen_toNat (b : Byte) (h : s.bufLen.toNat < 65535) :
    (s.appendTbuf b).bufLen.toNat = s.bufLen.toNat + 1 := by
  simp only [State.appendTbuf_bufLen, BitVec.toNat_add]
  exact Nat.mod_eq_of_lt (by simp; omega)

theorem State.appendIbuf_idLen_toNat (b : Byte) (h : s.idLen.toNat < 65535) :
    (s.appendIbuf b).idLen.toNat = s.idLen.toNat + 1 := by
  simp only [State.appendIbuf_idLen, BitVec.toNat_add]
  exact Nat.mod_eq_of_lt (by simp; omega)

/-! ### Runs -/

theorem execAll_cons {i : Instr} {is : List Instr} (h : exec i s = .next t) : execAll (i :: is) s = execAll is t := by
  simp [execAll, h]

theorem respondAll_cons {a : Response} {as : List Response} (h : takeMove (.respond a) s = .next t) :
    respondAll (a :: as) s = respondAll as t := by
  simp [respondAll, h]

theorem respondAll_append {as bs : List Response} (h : respondAll as s = .next t) :
    respondAll (as ++ bs) s = respondAll bs t := by
  induction as generalizing s with
  | nil => cases h; rfl
  | cons a as ih =>
    cases hm : takeMove (.respond a) s with
    | next u =>
      rw [respondAll_cons hm] at h
      rw [List.cons_append, respondAll_cons hm]
      exact ih h
    | fault r => exact r.rec
    | refused r => simp [respondAll, hm] at h

end Sys2Proof.Machine
end

