-- ==== Sys2Proof/Laws/Engine.lean ====
section
/-! SUPPORT. What a response does while an engine waits: the Respond step of a waiting scan or cycle, how a running command
ends, and the scanner's and the cycle's single steps. -/

namespace Sys2Proof.Machine

variable {s t : State}

/-- A running command whose request was answered ends with the result it raises. -/
theorem State.answered_raiseResult (code : ResultCode) (h : s.eng ≠ .idle) : s.answered.raiseResult code = s.ended code := by
  rw [State.raiseResult_of_running code (by simpa using h)]
  rfl

/-! ### The frame scanner -/

/-- A byte given to a waiting scan. -/
theorem respond_byte_scan {ph : FrPhase} (h : s.ScanWaits ph) (b : Byte) :
    takeMove (.respond (.byte b)) s = .next (s.answered.frByte b).frContinue :=
  respond_of_consumed h.pending rfl (by simp [State.engineConsume, h.eng, State.frRespond])

theorem respond_timeout_scan {ph : FrPhase} (h : s.ScanWaits ph) :
    takeMove (.respond .timeout) s = .next (s.ended .timeout) := by
  have he : s.eng ≠ .idle := by simp [h.eng]
  exact respond_of_consumed h.pending rfl
    (by simp [State.engineConsume, h.eng, State.frRespond, State.answered_raiseResult _ he])

theorem respond_ioerr_scan {ph : FrPhase} (h : s.ScanWaits ph) :
    takeMove (.respond .ioerr) s = .next (s.ended .ioError) := by
  have he : s.eng ≠ .idle := by simp [h.eng]
  exact respond_of_consumed h.pending rfl
    (by simp [State.engineConsume, h.eng, State.frRespond, State.answered_raiseResult _ he])

theorem State.frByte_hunt (h : s.frPhase = .hunt) (b : Byte) : s.frByte b = s.frHunt b := by simp [State.frByte, h]

theorem State.frByte_body (h : s.frPhase = .body) (b : Byte) : s.frByte b = s.frBody b := by simp [State.frByte, h]

theorem State.frByte_tail (h : s.frPhase = .tail) (b : Byte) : s.frByte b = s.frTail b := by simp [State.frByte, h]

theorem State.frContinue_of_scan (h : s.eng = .fr) : s.frContinue = s.requested .rx := by
  simp [State.frContinue, h, State.issue_eq_requested]

theorem State.frContinue_of_ended (h : s.eng ≠ .fr) : s.frContinue = s := by simp [State.frContinue, h]

/-- What a byte does in HUNT. -/
theorem State.frHunt_cases (b : Byte) (s : State) :
    (b = chSlash ∧ s.frHunt b = s.startCandidate b) ∨ (b ≠ chSlash ∧ s.frHunt b = s.failAdd 1) := by
  by_cases h : b = chSlash
  · exact .inl ⟨h, by rw [State.frHunt, if_pos h]⟩
  · exact .inr ⟨h, by rw [State.frHunt, if_neg h]⟩

/-- What a byte does in BODY. -/
theorem State.frBody_cases (b : Byte) (s : State) :
    (b = chSlash ∧ s.frBody b = (s.startCandidate b).failAdd s.bufLen.toNat) ∨
      (b ≠ chSlash ∧ s.tbufFull = true ∧ s.frBody b = s.overflow) ∨
      (b = chBang ∧ s.tbufFull = false ∧ s.frBody b = { s.appendTbuf b with frPhase := .tail, tailN := 0 }) ∨
      (b ≠ chSlash ∧ b ≠ chBang ∧ s.tbufFull = false ∧ s.frBody b = s.appendTbuf b) := by
  by_cases h : b = chSlash
  · exact .inl ⟨h, by rw [State.frBody, if_pos h]⟩
  · cases hf : s.tbufFull with
    | true => exact .inr (.inl ⟨h, rfl, by rw [State.frBody, if_neg h, hf]; simp⟩)
    | false =>
      by_cases hb : b = chBang
      · exact .inr (.inr (.inl ⟨hb, rfl, by rw [State.frBody, if_neg h, hf, if_pos hb]; simp⟩))
      · exact .inr (.inr (.inr ⟨h, hb, rfl, by rw [State.frBody, if_neg h, hf, if_neg hb]; simp⟩))

/-- What the check of a tail chunk does. -/
theorem State.checkTail_cases (s : State) :
    (s.tailN = 2 ∧ s.tailByte 0 = chCR ∧ s.tailByte 1 = chLF ∧ s.checkTail = s.raiseResult .ok) ∨
      (s.tailN = 2 ∧ s.tailByte 0 = chCR ∧ s.tailByte 1 ≠ chLF ∧ s.checkTail = s.discard) ∨
      (s.tailN = 6 ∧ s.newTailOk = true ∧ s.checkTail = s.raiseResult .ok) ∨
      (s.tailN = 6 ∧ s.newTailOk = false ∧ s.checkTail = s.discard) ∨
      (s.tailN ≠ 6 ∧ ¬(s.tailN = 2 ∧ s.tailByte 0 = chCR) ∧ s.checkTail = s) := by
  by_cases h2 : s.tailN = 2 ∧ s.tailByte 0 = chCR
  · by_cases h1 : s.tailByte 1 = chLF
    · exact .inl ⟨h2.1, h2.2, h1, by rw [State.checkTail, if_pos h2, if_pos h1]⟩
    · exact .inr (.inl ⟨h2.1, h2.2, h1, by rw [State.checkTail, if_pos h2, if_neg h1]⟩)
  · by_cases h6 : s.tailN = 6
    · cases hn : s.newTailOk with
      | true => exact .inr (.inr (.inl ⟨h6, rfl, by rw [State.checkTail, if_neg h2, if_pos h6, hn]; simp⟩))
      | false => exact .inr (.inr (.inr (.inl ⟨h6, rfl, by rw [State.checkTail, if_neg h2, if_pos h6, hn]; simp⟩)))
    · exact .inr (.inr (.inr (.inr ⟨h6, h2, by rw [State.checkTail, if_neg h2, if_neg h6]⟩)))

/-! ### The D0 engine -/

/-- A response that the phase of a waiting cycle has a row for. -/
theorem respond_cycle {ph : D0Phase} {r : Request} {a : Response} (h : s.CycleWaits ph r) (ha : admits r a = true)
    (hne : a ≠ .ioerr) (ht : s.answered.d0Advance a = some t) : takeMove (.respond a) s = .next t :=
  respond_of_consumed h.pending ha (by simp [State.engineConsume, h.eng, State.d0Respond, hne, ht])

theorem respond_ioerr_cycle {ph : D0Phase} {r : Request} (h : s.CycleWaits ph r) (ha : admits r .ioerr = true) :
    takeMove (.respond .ioerr) s = .next (s.ended .ioError) := by
  have he : s.eng ≠ .idle := by simp [h.eng]
  exact respond_of_consumed h.pending ha
    (by simp [State.engineConsume, h.eng, State.d0Respond, State.answered_raiseResult _ he])

/-- The row of the phase table a consumed response took. -/
theorem State.d0Advance_cases {a : Response} (h : s.d0Advance a = some t) :
    (s.d0Phase = .setbaud0 ∧ a = .ok ∧ t = s.afterSetbaud0) ∨
      (s.d0Phase = .wakeTx ∧ a = .ok ∧ t = s.sendWake (s.seqK + 1)) ∨
      (s.d0Phase = .settle ∧ a = .done ∧ t = s.enterFlush) ∨
      (s.d0Phase = .flush ∧ a = .ok ∧ t = s.sendSignon 0) ∨
      (s.d0Phase = .signonTx ∧ a = .ok ∧ t = s.sendSignon (s.seqK + 1)) ∨
      (s.d0Phase = .ident ∧ ∃ b, a = .byte b ∧ t = s.identByte b) ∨
      (s.d0Phase = .ident ∧ a = .timeout ∧ t = s.raiseResult .noIdent) ∨
      (s.d0Phase = .baudB ∧ a = .ok ∧ t = s.enterTel) ∨
      (s.d0Phase = .ackTx ∧ a = .ok ∧ t = s.sendAck (s.seqK + 1)) ∨
      (s.d0Phase = .ackWait ∧ a = .done ∧ t = s.enterBaudC) ∨
      (s.d0Phase = .baudC ∧ a = .ok ∧ t = s.enterTel) ∨
      (s.d0Phase = .tel ∧ ∃ b, a = .byte b ∧ t = s.telByte b) ∨
      (s.d0Phase = .tel ∧ a = .timeout ∧ t = s.telTimeout) ∨
      (s.d0Phase = .bccRd ∧ ∃ c, a = .byte c ∧ t = s.bccByte c) ∨
      (s.d0Phase = .bccRd ∧ a = .timeout ∧ t = s.bccTimeout) ∨
      (s.d0Phase = .signoffTx ∧ a = .ok ∧ t = s.sendSignoff (s.seqK + 1)) ∨
      (s.d0Phase = .drain ∧ a = .ok ∧ t = s.terminal) := by
  unfold State.d0Advance at h
  split at h <;> simp_all

/-! ### Sending a sequence -/

/-- A step and then a run. -/
theorem respondAll_step {u : State} {a : Response} {as : List Response} (h : takeMove (.respond a) s = .next t)
    (hr : respondAll as t = .next u) : respondAll (a :: as) s = .next u := by
  rw [respondAll_cons h, hr]

/-- The state in which the bytes of a sequence from byte k on were requested and the last one answered. -/
def State.sent (ph : D0Phase) (seq : List Byte) (k : Nat) (s : State) : State :=
  { s with
    d0Phase := ph
    seqK := seq.length - 1
    pending := none
    history := s.history ++ (seq.drop k).map .tx }

/-- A phase that sends a sequence answers an OK with the next byte. -/
def SendsOnOk (ph : D0Phase) (seq : State → List Byte) (after : State → State) : Prop :=
  ∀ u : State, u.d0Phase = ph → u.d0Advance .ok = some (u.sendFrom ph (seq u) after (u.seqK + 1))

theorem signon_sendsOnOk : SendsOnOk .signonTx (fun _ => signonSeq) State.enterIdent := by
  intro u h; simp [State.d0Advance, h, State.sendSignon]

theorem ack_sendsOnOk : SendsOnOk .ackTx (fun u => ackSeq u.zchar) State.enterAckWait := by
  intro u h; simp [State.d0Advance, h, State.sendAck]

theorem signoff_sendsOnOk : SendsOnOk .signoffTx (fun _ => signoffSeq) State.enterDrain := by
  intro u h; simp [State.d0Advance, h, State.sendSignoff]

/-- Answering every byte of a sequence from byte k on with OK requests the rest of the bytes in order, and then goes on. -/
theorem respondAll_sendFrom {ph : D0Phase} {seq : State → List Byte} {after : State → State} (hs : SendsOnOk ph seq after)
    (hz : ∀ u v : State, u.zchar = v.zchar → seq u = seq v) :
    ∀ (n k : Nat) (s : State), n + k + 1 = (seq s).length → s.eng = .d0 →
      respondAll (List.replicate (n + 1) .ok) (s.sendFrom ph (seq s) after k) = .next (after (s.sent ph (seq s) k)) := by
  intro n
  induction n with
  | zero =>
    intro k s hn he
    have hk : k < (seq s).length := by omega
    rw [State.sendFrom_of_lt hk]
    refine respondAll_step (t := after (s.sent ph (seq s) k)) ?_ rfl
    refine respond_cycle ⟨by simpa using he, rfl, rfl⟩ rfl (by simp) ?_
    rw [hs _ (by simp), State.sendFrom_of_le]
    · congr 2
      have hd : (seq s).drop k = [(seq s)[k]] := by rw [List.drop_eq_getElem_cons hk, List.drop_of_length_le (by omega)]
      have h1 : (seq s).length - 1 = k := by omega
      simp [State.sent, State.enterPhase, State.issue, State.answered, hd, h1]
    · rw [hz _ s (by simp)]; simp; omega
  | succ n ih =>
    intro k s hn he
    have hk : k < (seq s).length := by omega
    rw [State.sendFrom_of_lt hk, List.replicate_succ]
    have hq : seq (State.enterPhase ph (.tx (seq s)[k]) { s with seqK := k }).answered = seq s := hz _ _ (by simp)
    refine respondAll_step
      (t := (State.enterPhase ph (.tx (seq s)[k]) { s with seqK := k }).answered.sendFrom ph (seq s) after (k + 1)) ?_ ?_
    · refine respond_cycle ⟨by simpa using he, rfl, rfl⟩ rfl (by simp) ?_
      rw [hs _ (by simp), hq]; simp
    · have := ih (k + 1) (State.enterPhase ph (.tx (seq s)[k]) { s with seqK := k }).answered (by rw [hq]; omega)
        (by simpa using he)
      rw [hq] at this
      rw [this]
      have hd := List.drop_eq_getElem_cons hk
      congr 2
      simp only [State.sent, State.enterPhase, State.issue, State.answered, hd, List.map_cons, List.append_assoc,
        List.cons_append, List.nil_append]

/-! ### Moves -/

/-- Every step takes the first move of the inbox, or has none and changes nothing. -/
theorem step_cases (h : step s = .next t) :
    (s.inbox = [] ∧ t = s) ∨ ∃ m rest, s.inbox = m :: rest ∧ takeMove m { s with inbox := rest } = .next t := by
  unfold step stepInbox at h
  split at h
  · rename_i hs; cases h; exact .inl ⟨hs, rfl⟩
  · rename_i m rest hs; exact .inr ⟨m, rest, hs, h⟩

/-- What a write to the register port can do. -/
theorem hostWrite_cases {addr : RegAddr} {v : Word} (h : hostWrite addr v s = .next t) :
    (addr = 0x00 ∧ writeCommand v s = .next t) ∨ (addr = 0x02 ∧ t = s.writeConfig v) ∨
      (addr = 0x03 ∧ t = s.writeBudget v) ∨ (addr ≠ 0x00 ∧ addr ≠ 0x02 ∧ addr ≠ 0x03 ∧ t = s) := by
  unfold hostWrite at h
  split at h
  · rename_i ha; exact .inl ⟨BitVec.eq_of_toNat_eq ha, h⟩
  · rename_i ha; cases h; exact .inr (.inl ⟨BitVec.eq_of_toNat_eq ha, rfl⟩)
  · rename_i ha; cases h; exact .inr (.inr (.inl ⟨BitVec.eq_of_toNat_eq ha, rfl⟩))
  · rename_i h0 h2 h3
    cases h
    exact .inr (.inr (.inr ⟨fun e => h0 (by rw [e]; rfl), fun e => h2 (by rw [e]; rfl), fun e => h3 (by rw [e]; rfl), rfl⟩))

/-- What a word written to CMD can do: run the command it decodes to, or be illegal. -/
theorem writeCommand_cases {v : Word} (h : writeCommand v s = .next t) :
    (∃ i, decodeCommand v = .instr i ∧ exec i s = .next t) ∨
      ((∀ i, decodeCommand v ≠ .instr i) ∧ illegalCommand s = .next t) := by
  unfold writeCommand at h
  split at h
  · rename_i i hd; exact .inl ⟨i, hd, h⟩
  · rename_i hd; exact .inr ⟨by simp [hd], h⟩
  · rename_i hd; exact .inr ⟨by simp [hd], h⟩

end Sys2Proof.Machine
end

