-- ==== Sys2Proof/Laws/Frame.lean ====
section
/-! SUPPORT. What a response to a running engine leaves unchanged: every field that no rule of the engine writes
(spec/42_frame_scanner.md R500 to R510, spec/43_d0_engine.md R600 to R671). -/

namespace Sys2Proof.Machine

variable {s t : State}

/-! ### The frame scanner -/

/-- The state with everything the frame scanner writes blanked out: what is left is what it may not change. -/
def State.outsideScan (s : State) : State :=
  { s with
    status := { s.status with busy := false, ovf := false, res := .none }
    eng := .idle, frPhase := .hunt, tailN := 0, bufLen := 0, failCnt := 0, tbuf := [], pending := none, history := [] }

/-- From s to t only what the frame scanner writes may change, and BUSY can only fall. -/
structure ScanFrame (s t : State) : Prop where
  same : t.outsideScan = s.outsideScan
  busy : t.status.busy = s.status.busy ∨ t.status.busy = false

theorem ScanFrame.refl (s : State) : ScanFrame s s := ⟨rfl, .inl rfl⟩

theorem ScanFrame.trans {s t u : State} (h : ScanFrame s t) (g : ScanFrame t u) : ScanFrame s u :=
  ⟨g.same.trans h.same, g.busy.elim (fun e => e ▸ h.busy) .inr⟩

theorem State.raiseResult_busy (s : State) (c : ResultCode) :
    (s.raiseResult c).status.busy = s.status.busy ∨ (s.raiseResult c).status.busy = false := by
  unfold State.raiseResult; split
  · exact .inl rfl
  · exact .inr rfl

theorem ScanFrame.raiseResult (c : ResultCode) (s : State) : ScanFrame s (s.raiseResult c) := by
  refine ⟨?_, s.raiseResult_busy c⟩
  unfold State.raiseResult; split <;> rfl

theorem ScanFrame.failAdd (k : Nat) (s : State) : ScanFrame s (s.failAdd k) := by
  have h : ScanFrame s { s with failCnt := sat16 (s.failCnt.toNat + k) } := ⟨rfl, .inl rfl⟩
  rcases State.failAdd_cases k s with ⟨h1, _⟩ | ⟨h1, _⟩ <;> rw [h1]
  · exact h
  · exact h.trans (.raiseResult _ _)

theorem ScanFrame.appendTbuf (b : Byte) (s : State) : ScanFrame s (s.appendTbuf b) := ⟨rfl, .inl rfl⟩

theorem ScanFrame.startCandidate (b : Byte) (s : State) : ScanFrame s (s.startCandidate b) := ⟨rfl, .inl rfl⟩

theorem ScanFrame.overflow (s : State) : ScanFrame s s.overflow :=
  .trans (t := { s with bufLen := 0, status := { s.status with ovf := true }, frPhase := .hunt, tailN := 0 })
    ⟨rfl, .inl rfl⟩ (.failAdd _ _)

theorem ScanFrame.discard (s : State) : ScanFrame s s.discard :=
  .trans (t := { s with bufLen := 0, frPhase := .hunt, tailN := 0 }) ⟨rfl, .inl rfl⟩ (.failAdd _ _)

theorem ScanFrame.checkTail (s : State) : ScanFrame s s.checkTail := by
  rcases s.checkTail_cases with ⟨_, _, _, h⟩ | ⟨_, _, _, h⟩ | ⟨_, _, h⟩ | ⟨_, _, h⟩ | ⟨_, _, h⟩ <;> rw [h]
  · exact .raiseResult _ _
  · exact .discard _
  · exact .raiseResult _ _
  · exact .discard _
  · exact .refl _

theorem ScanFrame.frByte (b : Byte) (s : State) : ScanFrame s (s.frByte b) := by
  unfold State.frByte
  split
  · rcases s.frHunt_cases b with ⟨_, h⟩ | ⟨_, h⟩ <;> rw [h]
    · exact .startCandidate _ _
    · exact .failAdd _ _
  · rcases s.frBody_cases b with ⟨_, h⟩ | ⟨_, _, h⟩ | ⟨_, _, h⟩ | ⟨_, _, _, h⟩ <;> rw [h]
    · exact (ScanFrame.startCandidate b s).trans (.failAdd _ _)
    · exact .overflow _
    · exact (ScanFrame.appendTbuf b s).trans ⟨rfl, .inl rfl⟩
    · exact .appendTbuf _ _
  · unfold State.frTail
    split
    · exact .overflow _
    · exact .trans (t := { s.appendTbuf b with tailN := s.tailN + 1 }) ⟨rfl, .inl rfl⟩ (.checkTail _)

/-- A response consumed by the frame scanner writes nothing outside the scanner's frame. -/
theorem frRespond_frame {a : Response} (h : s.frRespond a = some t) : ScanFrame s t := by
  rcases frRespond_some h with ⟨_, rfl⟩ | ⟨_, rfl⟩ | ⟨b, _, rfl⟩
  · exact .raiseResult _ _
  · exact .raiseResult _ _
  · refine (ScanFrame.frByte b s).trans ?_
    unfold State.frContinue
    split
    · exact ⟨rfl, .inl rfl⟩
    · exact .refl _

/-! ### The D0 engine -/

/-- The state with everything the D0 engine writes blanked out: what is left is what it may not change. -/
def State.outsideCycle (s : State) : State :=
  { s with
    status := { s.status with busy := false, res := .none }
    eng := .idle, d0Phase := .setbaud0, seqK := 0, bangCnt := 0, rateCode := 0, zchar := 0, lrc := 0, bufLen := 0
    idLen := 0, d0res := resetD0res, bcc := { rxBcc := 0, lrcCalc := 0 }, tbuf := [], ibuf := [], pending := none
    history := [] }

/-- From s to t only what the D0 engine writes may change, and BUSY can only fall. -/
structure CycleFrame (s t : State) : Prop where
  same : t.outsideCycle = s.outsideCycle
  busy : t.status.busy = s.status.busy ∨ t.status.busy = false

theorem CycleFrame.refl (s : State) : CycleFrame s s := ⟨rfl, .inl rfl⟩

theorem CycleFrame.trans {s t u : State} (h : CycleFrame s t) (g : CycleFrame t u) : CycleFrame s u :=
  ⟨g.same.trans h.same, g.busy.elim (fun e => e ▸ h.busy) .inr⟩

theorem CycleFrame.raiseResult (c : ResultCode) (s : State) : CycleFrame s (s.raiseResult c) := by
  refine ⟨?_, s.raiseResult_busy c⟩
  unfold State.raiseResult; split <;> rfl

theorem CycleFrame.enterPhase (ph : D0Phase) (r : Request) (s : State) : CycleFrame s (s.enterPhase ph r) :=
  ⟨rfl, .inl rfl⟩

theorem CycleFrame.sendFrom (ph : D0Phase) (seq : List Byte) {after : State → State}
    (h : ∀ u : State, CycleFrame u (after u)) (k : Nat) (s : State) : CycleFrame s (s.sendFrom ph seq after k) := by
  unfold State.sendFrom
  split
  · exact ⟨rfl, .inl rfl⟩
  · exact h _

theorem CycleFrame.sendSignon (k : Nat) (s : State) : CycleFrame s (s.sendSignon k) :=
  .sendFrom _ _ (fun _ => .enterPhase _ _ _) _ _

theorem CycleFrame.sendAck (k : Nat) (s : State) : CycleFrame s (s.sendAck k) :=
  .sendFrom _ _ (fun _ => .enterPhase _ _ _) _ _

theorem CycleFrame.sendSignoff (k : Nat) (s : State) : CycleFrame s (s.sendSignoff k) :=
  .sendFrom _ _ (fun _ => .enterPhase _ _ _) _ _

theorem CycleFrame.sendWake (k : Nat) (s : State) : CycleFrame s (s.sendWake k) := by
  unfold State.sendWake
  split
  · exact ⟨rfl, .inl rfl⟩
  · exact .enterPhase _ _ _

theorem CycleFrame.afterSetbaud0 (s : State) : CycleFrame s s.afterSetbaud0 := by
  unfold State.afterSetbaud0
  split
  · exact .sendWake _ _
  · exact .enterPhase _ _ _

theorem CycleFrame.signOff (s : State) : CycleFrame s s.signOff := by
  unfold State.signOff
  split
  · exact .sendSignoff _ _
  · exact .raiseResult _ _

theorem CycleFrame.endOfTelegram (s : State) : CycleFrame s s.endOfTelegram := by
  unfold State.endOfTelegram
  dsimp only
  split
  · exact ⟨rfl, .inl rfl⟩
  · exact .trans (t := { s with bcc := { s.bcc with lrcCalc := lrcFinish s.lrc } }) ⟨rfl, .inl rfl⟩ (.signOff _)

theorem CycleFrame.obtain (s : State) : CycleFrame s s.obtain :=
  .trans (t := { s with d0res := { s.d0res with obtained := true } }) ⟨rfl, .inl rfl⟩ (.endOfTelegram _)

theorem CycleFrame.telBang (b : Byte) (s : State) : CycleFrame s (s.telBang b) := by
  unfold State.telBang
  split
  · dsimp only
    split
    · exact .trans (t := { s with bangCnt := s.bangCnt + 1 }) ⟨rfl, .inl rfl⟩ (.obtain _)
    · exact ⟨rfl, .inl rfl⟩
  · split <;> exact ⟨rfl, .inl rfl⟩

theorem CycleFrame.telByte (b : Byte) (s : State) : CycleFrame s (s.telByte b) := by
  unfold State.telByte
  split
  · exact .trans (t := { s with
      d0res := { s.d0res with etxSeen := true }
      lrc := if s.d0res.stxSeen then lrcStep s.lrc chETX else s.lrc }) ⟨rfl, .inl rfl⟩ (.obtain _)
  split
  · exact .trans (t := s.telStx) ⟨rfl, .inl rfl⟩ (.telBang _ _)
  split
  · exact .raiseResult _ _
  · exact .trans (t := s.telStore b) ⟨rfl, .inl rfl⟩ (.telBang _ _)

theorem CycleFrame.detectMode (s : State) : CycleFrame s s.detectMode := by
  unfold State.detectMode
  split
  · rename_i m k _
    have h : CycleFrame s { s with
      d0res := { s.d0res with mode := m, baud := k }, rateCode := k, zchar := s.ibuf.read 4 } := ⟨rfl, .inl rfl⟩
    unfold State.negotiate
    dsimp only
    split
    · exact h.trans (.enterPhase _ _ _)
    split
    · exact h.trans (.sendAck _ _)
    · exact h.trans (.enterPhase _ _ _)
  · exact .raiseResult _ _

theorem CycleFrame.identByte (b : Byte) (s : State) : CycleFrame s (s.identByte b) := by
  have h : CycleFrame s (s.appendIbuf b) := ⟨rfl, .inl rfl⟩
  unfold State.identByte
  split
  · exact .raiseResult _ _
  split
  · exact .raiseResult _ _
  split
  · refine h.trans ?_
    unfold State.endOfLine
    split
    · exact .detectMode _
    · exact .raiseResult _ _
  · exact h.trans (.enterPhase _ _ _)

/-- A response consumed by the D0 engine writes nothing outside the engine's frame. -/
theorem d0Respond_frame {a : Response} (h : s.d0Respond a = some t) : CycleFrame s t := by
  unfold State.d0Respond at h
  split at h
  · cases h
    exact .raiseResult _ _
  rcases State.d0Advance_cases h with ⟨_, _, rfl⟩ | ⟨_, _, rfl⟩ | ⟨_, _, rfl⟩ | ⟨_, _, rfl⟩ | ⟨_, _, rfl⟩ |
    ⟨_, b, _, rfl⟩ | ⟨_, _, rfl⟩ | ⟨_, _, rfl⟩ | ⟨_, _, rfl⟩ | ⟨_, _, rfl⟩ | ⟨_, _, rfl⟩ | ⟨_, b, _, rfl⟩ |
    ⟨_, _, rfl⟩ | ⟨_, c, _, rfl⟩ | ⟨_, _, rfl⟩ | ⟨_, _, rfl⟩ | ⟨_, _, rfl⟩
  · exact .afterSetbaud0 _
  · exact .sendWake _ _
  · exact .enterPhase _ _ _
  · exact .sendSignon _ _
  · exact .sendSignon _ _
  · exact .identByte _ _
  · exact .raiseResult _ _
  · exact .enterPhase _ _ _
  · exact .sendAck _ _
  · exact .enterPhase _ _ _
  · exact .enterPhase _ _ _
  · exact .telByte _ _
  · unfold State.telTimeout
    split
    · exact .obtain _
    · exact .raiseResult _ _
  · exact .trans (t := { s with
      bcc := { s.bcc with rxBcc := c }
      d0res := { s.d0res with bccValid := true, verdict := blockCheckVerdict c s.bcc.lrcCalc } })
      ⟨rfl, .inl rfl⟩ (.signOff _)
  · exact .trans (t := { s with d0res := { s.d0res with verdict := .failed } }) ⟨rfl, .inl rfl⟩ (.signOff _)
  · exact .sendSignoff _ _
  · exact .raiseResult _ _

end Sys2Proof.Machine
end

