-- ==== Sys2Proof/Laws/HostProgram.lean ====
section
/-! SUPPORT. What one turn of a host program beside the block can do (spec/30_encoding.md R308, R309). -/

namespace Sys2Proof.Machine

/-- The test of `wait.idle` is on BUSY, bit 0 of the STATUS it reads. -/
@[simp] theorem HostAct.again_readUntilIdle (s : State) : HostAct.readUntilIdle.again s = s.status.busy := by
  have h : ∀ (b r o : Bool) (c : ResultCode),
      (Status.word { busy := b, rej := r, ovf := o, res := c }).getLsbD 0 = b := by
    intro b r o c; cases b <;> cases r <;> cases o <;> cases c <;> rfl
  exact h s.status.busy s.status.rej s.status.ovf s.status.res

@[simp] theorem HostAct.again_move (m : Move) (s : State) : (HostAct.move m).again s = false := rfl

theorem leaving_next {acts : List HostAct} {o : Host.Outcome State Fault Refusal} {q : HostRun}
    (h : leaving acts o = .next q) : o = .next q.block ∧ q.acts = acts := by
  cases o <;> cases h
  exact ⟨rfl, rfl⟩

/-- A turn is one move of the block, or nothing for a program that has ended; what is left of the program changes only by
the host's own turn. -/
theorem HostRun.turn_next {k : Turn} {r q : HostRun} (h : r.turn k = .next q) :
    (k = .host ∧ r.acts = [] ∧ q = r) ∨
      (∃ a rest, k = .host ∧ r.acts = a :: rest ∧ takeMove a.asMove r.block = .next q.block ∧
        q.acts = if a.again r.block then a :: rest else rest) ∨
      (∃ a, k = .transport a ∧ takeMove (.respond a) r.block = .next q.block ∧ q.acts = r.acts) ∨
      (k = .reset ∧ takeMove .reset r.block = .next q.block ∧ q.acts = r.acts) := by
  obtain ⟨acts, s⟩ := r
  cases k with
  | host =>
    cases acts with
    | nil => cases h; exact .inl ⟨rfl, rfl, rfl⟩
    | cons a rest =>
      have ⟨hm, ha⟩ := leaving_next h
      exact .inr (.inl ⟨a, rest, rfl, rfl, hm, ha⟩)
  | transport a =>
    have ⟨hm, ha⟩ := leaving_next h
    exact .inr (.inr (.inl ⟨a, rfl, hm, ha⟩))
  | reset =>
    have ⟨hm, ha⟩ := leaving_next (o := takeMove .reset s) h
    exact .inr (.inr (.inr ⟨rfl, hm, ha⟩))

/-- A run of at least one turn is its first turn and a run of the others. -/
theorem HostRun.turns_cons {k : Turn} {ks : List Turn} {r q : HostRun} (h : HostRun.turns (k :: ks) r = .next q) :
    ∃ p, r.turn k = .next p ∧ HostRun.turns ks p = .next q := by
  unfold HostRun.turns at h
  split at h
  · exact ⟨_, ‹_›, h⟩
  · cases h
  · cases h

end Sys2Proof.Machine
end

