-- ==== Sys2Proof/Laws/Memory.lean ====
section
/-! SUPPORT. The laws of a buffer: read after write, and that a write keeps the canonical form. -/

namespace Sys2Proof.Machine

theorem Memory.above_iff (lo : Nat) (m : Memory) : Memory.above lo m = true ↔ ∀ c ∈ m, lo < c.1 := by
  simp [Memory.above]

theorem Memory.above_mono {lo lo' : Nat} (h : lo ≤ lo') {m : Memory} (hm : Memory.above lo' m = true) :
    Memory.above lo m = true := by
  rw [Memory.above_iff] at *
  exact fun c hc => lt_of_le_of_lt h (hm c hc)

theorem Memory.wf_cons (a : Nat) (b : Byte) (m : Memory) :
    Memory.wf ((a, b) :: m) = true ↔ Memory.above a m = true ∧ b ≠ Memory.unwritten ∧ Memory.wf m = true := by
  simp [Memory.wf, and_assoc]

/-- An index below every listed one reads as unwritten. -/
theorem Memory.read_of_above {m : Memory} {i : Nat} (h : ∀ c ∈ m, i < c.1) : m.read i = Memory.unwritten := by
  induction m with
  | nil => rfl
  | cons c m ih =>
    obtain ⟨a, b⟩ := c
    have ha : i < a := h (a, b) (by simp)
    rw [Memory.read, if_neg (by omega)]
    exact ih fun c hc => h c (by simp [hc])

/-- Every cell after a write is the written one or was listed before. -/
theorem Memory.mem_write {m : Memory} {i : Nat} {v : Byte} {c : Host.Cell} (h : c ∈ Memory.write m i v) :
    c = (i, v) ∨ c ∈ m := by
  induction m with
  | nil => simp only [Memory.write] at h; split at h <;> simp_all
  | cons d m ih =>
    obtain ⟨a, b⟩ := d
    simp only [Memory.write] at h
    split at h
    · split at h <;> simp_all
    · split at h
      · split at h
        · exact .inr (List.mem_cons_of_mem _ h)
        · simp only [List.mem_cons] at h ⊢
          exact h.imp_right .inr
      · rcases List.mem_cons.1 h with h | h
        · exact .inr (by simp [h])
        · exact (ih h).imp_right (List.mem_cons_of_mem _)

theorem Memory.read_write_ne {i j : Nat} (h : j ≠ i) (m : Memory) (v : Byte) :
    (Memory.write m i v).read j = m.read j := by
  induction m with
  | nil => simp only [Memory.write]; split <;> simp [Memory.read, Ne.symm h]
  | cons c m ih =>
    obtain ⟨a, b⟩ := c
    simp only [Memory.write]
    split
    · split <;> simp [Memory.read, Ne.symm h]
    · split
      · subst i; split <;> simp [Memory.read, Ne.symm h]
      · simp [Memory.read, ih]

theorem Memory.read_write_same {m : Memory} (hm : m.wf = true) (i : Nat) (v : Byte) :
    (Memory.write m i v).read i = v := by
  induction m with
  | nil => simp only [Memory.write]; split <;> simp_all [Memory.read]
  | cons c m ih =>
    obtain ⟨a, b⟩ := c
    obtain ⟨habove, hb, hwf⟩ := (Memory.wf_cons a b m).1 hm
    simp only [Memory.write]
    split
    · split
      · rename_i hia hv
        subst hv
        refine Memory.read_of_above fun c hc => ?_
        rcases List.mem_cons.1 hc with rfl | hc
        · exact hia
        · exact lt_trans hia ((Memory.above_iff _ _).1 habove c hc)
      · simp [Memory.read]
    · split
      · rename_i hia
        subst hia
        split
        · rename_i hv
          rw [hv]
          exact Memory.read_of_above ((Memory.above_iff _ _).1 habove)
        · simp [Memory.read]
      · rename_i h1 h2
        simp [Memory.read, Ne.symm h2, ih hwf]

theorem Memory.write_wf {m : Memory} (hm : m.wf = true) (i : Nat) (v : Byte) : (Memory.write m i v).wf = true := by
  induction m with
  | nil => simp only [Memory.write]; split <;> simp_all [Memory.wf, Memory.above]
  | cons c m ih =>
    obtain ⟨a, b⟩ := c
    obtain ⟨habove, hb, hwf⟩ := (Memory.wf_cons a b m).1 hm
    simp only [Memory.write]
    split
    · split
      · exact hm
      · rename_i hia hv
        refine (Memory.wf_cons i v _).2 ⟨(Memory.above_iff _ _).2 fun c hc => ?_, hv, hm⟩
        rcases List.mem_cons.1 hc with rfl | hc
        · exact hia
        · exact lt_trans hia ((Memory.above_iff _ _).1 habove c hc)
    · split
      · rename_i hia
        subst hia
        split
        · exact hwf
        · rename_i hv
          exact (Memory.wf_cons _ _ _).2 ⟨habove, hv, hwf⟩
      · rename_i h1 h2
        refine (Memory.wf_cons _ _ _).2 ⟨(Memory.above_iff _ _).2 fun c hc => ?_, hb, ih hwf⟩
        rcases Memory.mem_write hc with rfl | hc
        · simp only; omega
        · exact (Memory.above_iff _ _).1 habove c hc

/-- A write at an index below a bound keeps every listed index below it. -/
theorem Memory.write_inside {m : Memory} {n i : Nat} (hm : ∀ c ∈ m, c.1 < n) (hi : i < n) (v : Byte) :
    ∀ c ∈ Memory.write m i v, c.1 < n := by
  intro c hc
  rcases Memory.mem_write hc with rfl | hc
  · exact hi
  · exact hm c hc

@[simp] theorem Memory.firstBytes_length (m : Memory) (n : Nat) : (m.firstBytes n).length = n := by
  simp [Memory.firstBytes]

@[simp] theorem Memory.firstBytes_getElem? (m : Memory) (n i : Nat) :
    (m.firstBytes n)[i]? = if i < n then some (m.read i) else none := by
  by_cases h : i < n <;> simp [Memory.firstBytes, h]

@[simp] theorem Memory.firstBytes_getElem (m : Memory) (n i : Nat) (h : i < (m.firstBytes n).length) :
    (m.firstBytes n)[i] = m.read i := by
  simp [Memory.firstBytes]

theorem Memory.firstBytes_getD {m : Memory} {n i : Nat} (h : i < n) (d : Byte) : (m.firstBytes n).getD i d = m.read i := by
  simp [List.getD, h]

theorem Memory.firstBytes_congr {m m' : Memory} {n : Nat} (h : ∀ i, i < n → m.read i = m'.read i) :
    m.firstBytes n = m'.firstBytes n := by
  simp only [Memory.firstBytes]
  exact List.map_congr_left fun i hi => h i (List.mem_range.1 hi)

/-- Appending at the length adds one byte at the end. -/
theorem Memory.firstBytes_append {m : Memory} (hm : m.wf = true) (n : Nat) (b : Byte) :
    (Memory.write m n b).firstBytes (n + 1) = m.firstBytes n ++ [b] := by
  simp only [Memory.firstBytes, List.range_succ, List.map_append, List.map_cons, List.map_nil,
    Memory.read_write_same hm]
  congr 1
  refine List.map_congr_left fun i hi => Memory.read_write_ne ?_ m b
  exact ne_of_lt (List.mem_range.1 hi)

end Sys2Proof.Machine
end

