-- ==== Sys2Proof/Laws/PerInstr.lean ====
section
/-! SUPPORT. Facts about every command, one lemma per constructor of Instr. -/

namespace Sys2Proof.Laws.OpcodeInMap

/-- A command is well formed, its word's opcode is one of the map's twelve, and a Z-form word has IMM8 = 0
(spec/30_encoding.md R301, R303). -/
def Statement (i : Instr) : Prop :=
  i.wellFormed = true ∧ opcode (encode i) ≤ 0x0B ∧ (i.form = .z → imm8 (encode i) = 0x00)

theorem nop : Statement .nop := ⟨rfl, by decide, fun _ => by decide⟩

theorem crcaInit : Statement .crcaInit := ⟨rfl, by decide, fun _ => by decide⟩

theorem crcaByte (d : Byte) : Statement (.crcaByte d) := ⟨rfl, by simp [encode, BitVec.le_def], fun h => by cases h⟩

theorem crccInit : Statement .crccInit := ⟨rfl, by decide, fun _ => by decide⟩

theorem crccByte (d : Byte) : Statement (.crccByte d) := ⟨rfl, by simp [encode, BitVec.le_def], fun h => by cases h⟩

theorem lrcInit : Statement .lrcInit := ⟨rfl, by decide, fun _ => by decide⟩

theorem lrcByte (d : Byte) : Statement (.lrcByte d) := ⟨rfl, by simp [encode, BitVec.le_def], fun h => by cases h⟩

theorem bufClear : Statement .bufClear := ⟨rfl, by decide, fun _ => by decide⟩

theorem bufPush (d : Byte) : Statement (.bufPush d) := ⟨rfl, by simp [encode, BitVec.le_def], fun h => by cases h⟩

theorem classify : Statement .classify := ⟨rfl, by decide, fun _ => by decide⟩

theorem frScan : Statement .frScan := ⟨rfl, by decide, fun _ => by decide⟩

theorem d0Cycle : Statement .d0Cycle := ⟨rfl, by decide, fun _ => by decide⟩

end Sys2Proof.Laws.OpcodeInMap
end

