-- ==== Sys2Proof/Tests/Slice0.lean ====
section
/-! SUPPORT. The model's own tests: what the assembler refuses, one word a command, small steps from the tables of
spec/95_test_vectors.md, and for each statement a state and operands that meet its hypotheses. -/

namespace Sys2Proof.Tests

open Sys2Proof.Machine

/-! ### States -/

/-- The cells of bytes stored from an index on. -/
def cells : Nat → List Byte → Memory
  | _, [] => []
  | i, b :: bs => if b = 0 then cells (i + 1) bs else (i, b) :: cells (i + 1) bs

/-- An idle block with buffers of 8 bytes that holds a telegram. -/
def idle (tel : List Byte) : State :=
  { State.reset with
    cfg := { Config.thisHardware with capacity := 8, identCap := 8, wakeCount := 2 }
    tbuf := cells 0 tel
    bufLen := BitVec.ofNat 16 tel.length }

/-- A scan that waits in a phase with a candidate. -/
def scan (ph : FrPhase) (tel : List Byte) (n : Nat) : State :=
  { idle tel with
    eng := .fr, frPhase := ph, tailN := n, pending := some .rx, history := [.rx]
    status := { resetStatus with busy := true } }

/-- A cycle that waits in a phase with a request, after a telegram. -/
def cycle (ph : D0Phase) (r : Request) (tel : List Byte) : State :=
  { idle tel with
    eng := .d0, d0Phase := ph, pending := some r, history := [r], status := { resetStatus with busy := true } }

/-- A cycle that reads its identification line. -/
def ident (line : List Byte) : State :=
  { cycle .ident .rx [] with ibuf := cells 0 line, idLen := BitVec.ofNat 16 line.length }

/-- A cycle in mode C that reads the telegram. -/
def tel (bang : Bool) (n : Nat) (bytes : List Byte) : State :=
  { cycle .tel .rx bytes with d0res := { resetD0res with mode := .c, baud := 5, bangSeen := bang }, bangCnt := n }

/-- A cycle in mode C that has drained the line after a failed block check. -/
def drained : State :=
  { cycle .drain .drain [0x41] with
    d0res := { resetD0res with mode := .c, baud := 5, verdict := .failed, obtained := true }, inbox := [.respond .ok] }

theorem scan_waits (ph : FrPhase) (t : List Byte) (n : Nat) : (scan ph t n).ScanWaits ph := ⟨rfl, rfl, rfl⟩

theorem cycle_waits (ph : D0Phase) (r : Request) (t : List Byte) : (cycle ph r t).CycleWaits ph r := ⟨rfl, rfl, rfl⟩

theorem ident_waits (line : List Byte) : (ident line).CycleWaits .ident .rx := ⟨rfl, rfl, rfl⟩

theorem tel_waits (b : Bool) (n : Nat) (t : List Byte) : (tel b n t).CycleWaits .tel .rx := ⟨rfl, rfl, rfl⟩

theorem scanTail_inv : (scan .tail [0x2F, 0x41, 0x21, 0x0D] 1).Inv where
  port := ⟨by decide, by decide, by decide, fun r h => by cases h; rfl⟩
  buffers := ⟨by decide, by decide, by decide, by decide, by decide, by decide, by decide⟩
  scan := ⟨by decide, by decide, by decide, by decide, by decide, by decide, by decide⟩
  cycle :=
    ⟨by decide, by decide, by decide, by decide, by decide, by decide, by decide, by decide, by decide, by decide, by decide⟩
  tailClass := fun _ => rfl

theorem drained_inv : drained.Inv where
  port := ⟨by decide, by decide, by decide, fun r h => by cases h; rfl⟩
  buffers := ⟨by decide, by decide, by decide, by decide, by decide, by decide, by decide⟩
  scan := ⟨by decide, by decide, by decide, by decide, by decide, by decide, by decide⟩
  cycle :=
    ⟨by decide, by decide, by decide, by decide, by decide, by decide, by decide, by decide, by decide, by decide, by decide⟩
  tailClass := fun _ => rfl

/-- An idle block after the telegram "/A" with a byte 0x55 left behind it at index 3. -/
def leftover (b : Byte) : State := { idle [0x2F, 0x41] with tbuf := [(0, 0x2F), (1, 0x41), (3, b)] }

theorem leftover_inv : (leftover 0x55).Inv ∧ (leftover 0x66).Inv := by
  refine ⟨⟨⟨by decide, by decide, by decide, fun r h => by cases h⟩,
    ⟨by decide, by decide, by decide, by decide, by decide, by decide, by decide⟩,
    ⟨by decide, by decide, by decide, by decide, by decide, by decide, by decide⟩,
    ⟨by decide, by decide, by decide, by decide, by decide, by decide, by decide, by decide, by decide, by decide,
      by decide⟩, fun _ => rfl⟩, ⟨⟨by decide, by decide, by decide, fun r h => by cases h⟩,
    ⟨by decide, by decide, by decide, by decide, by decide, by decide, by decide⟩,
    ⟨by decide, by decide, by decide, by decide, by decide, by decide, by decide⟩,
    ⟨by decide, by decide, by decide, by decide, by decide, by decide, by decide, by decide, by decide, by decide,
      by decide⟩, fun _ => rfl⟩⟩

theorem bufferInv_empty : (idle []).BufferInv :=
  ⟨by decide, by decide, by decide, by decide, by decide, by decide, by decide⟩

/-! ### What the assembler refuses (spec/30_encoding.md R307, R308) -/

theorem test_refuses_crcaByte : assemble (.crcaByte 256) = none := by decide
theorem test_refuses_crccByte : assemble (.crccByte 256) = none := by decide
theorem test_refuses_lrcByte : assemble (.lrcByte 256) = none := by decide
theorem test_refuses_bufPush : assemble (.bufPush 256) = none := by decide
theorem test_refuses_wr : assemble (.wr .budget 65536) = none := by decide
theorem test_refuses_rdb : assemble (.rdb 65536) = none := by decide
theorem test_refuses_rdi : assemble (.rdi 65536) = none := by decide
theorem test_refuses_cmd : assemble (.cmd 65536) = none := by decide
theorem test_refuses_strings :
    assemble (.crcaStr [0x31, 256]) = none ∧ assemble (.crccStr [256]) = none ∧ assemble (.lrcStr [256]) = none ∧
      assemble (.bufStr [256]) = none ∧ assemble (.crcaOf [256]) = none ∧ assemble (.crccOf [256]) = none ∧
      assemble (.bufLoad [0x2F, 256]) = none := by decide
theorem test_refuses_program : assembleProgram [.nop, .cmd 65536, .nop] = none := by decide

/-- P5's first statement and an empty string (R309: "An empty string expands to nothing"). -/
theorem test_assembles_str :
    assemble (.crcaStr [0x31, 0x32]) = some [.move (.hostWrite 0x00 0x0231), .move (.hostWrite 0x00 0x0232)] ∧
      assemble (.bufStr []) = some [] := by decide

/-- P3's program. -/
theorem test_assembles_program :
    assembleProgram [.wr .budget 4, .frScan, .waitIdle, .classify] =
      some [.move (.hostWrite 0x03 4), .move (.hostWrite 0x00 0x0A00), .readUntilIdle, .move (.hostWrite 0x00 0x0900)] := by
  decide

/-! ### One word a command, bit by bit: OPC[15:8] IMM8[7:0] (spec/30_encoding.md R300, R303) -/

theorem test_decode_nop : decodeCommand 0b0000000000000000 = .instr .nop := by decide
theorem test_decode_crcaInit : decodeCommand 0b0000000100000000 = .instr .crcaInit := by decide
theorem test_decode_crcaByte : decodeCommand 0b0000001000110001 = .instr (.crcaByte 0x31) := by decide
theorem test_decode_crccInit : decodeCommand 0b0000001100000000 = .instr .crccInit := by decide
theorem test_decode_crccByte : decodeCommand 0b0000010011111110 = .instr (.crccByte 0xFE) := by decide
theorem test_decode_lrcInit : decodeCommand 0b0000010100000000 = .instr .lrcInit := by decide
theorem test_decode_lrcByte : decodeCommand 0b0000011010000001 = .instr (.lrcByte 0x81) := by decide
theorem test_decode_bufClear : decodeCommand 0b0000011100000000 = .instr .bufClear := by decide
theorem test_decode_bufPush : decodeCommand 0b0000100000101111 = .instr (.bufPush 0x2F) := by decide
theorem test_decode_classify : decodeCommand 0b0000100100000000 = .instr .classify := by decide
theorem test_decode_frScan : decodeCommand 0b0000101000000000 = .instr .frScan := by decide
theorem test_decode_d0Cycle : decodeCommand 0b0000101100000000 = .instr .d0Cycle := by decide

/-- Reserved opcodes and Z forms with an operand are refused by name (R305; vectors B2 to B5). -/
theorem test_decode_illegal :
    decodeCommand 0x0C00 = .reservedOpcode 0x0C ∧ decodeCommand 0xFFFF = .reservedOpcode 0xFF ∧
      decodeCommand 0x0001 = .operandNotZero 0x00 0x01 ∧ decodeCommand 0x0A01 = .operandNotZero 0x0A 0x01 := by decide

theorem test_decodeTableWord : decodeTableWord 16 0x0608 = some (.lrcByte 0x08) ∧ decodeTableWord 16 0x0C00 = none ∧
    decodeTableWord 8 0x0000 = some .nop := by decide

/-- A word placed at the host's next write runs as the first command after reset. -/
theorem test_withFetchWord : step (State.reset.withFetchWord 16 0x082F) = exec (.bufPush 0x2F) State.reset := by rfl

/-! ### One step a command -/

/-- B1. -/
theorem test_nop : ∃ t, exec .nop State.reset = .next t ∧ t.readReg 0x01 = 0x0010 := ⟨_, rfl, by decide⟩

theorem test_crcaInit : ∃ t, exec .crcaInit { State.reset with crca := 0xBB3D } = .next t ∧ t.readReg 0x04 = 0x0000 :=
  ⟨_, rfl, by decide⟩

/-- A4, and the last byte of A2's trace. -/
theorem test_crcaByte : (∃ t, exec (.crcaByte 0x01) State.reset = .next t ∧ t.readReg 0x04 = 0xC0C1) ∧
    ∃ t, exec (.crcaByte 0x39) { State.reset with crca := 0x3C9D } = .next t ∧ t.readReg 0x04 = 0xBB3D :=
  ⟨⟨_, rfl, by decide⟩, ⟨_, rfl, by decide⟩⟩

theorem test_crccInit : ∃ t, exec .crccInit { State.reset with crcc := 0x6F91 } = .next t ∧ t.readReg 0x05 = 0xFFFF :=
  ⟨_, rfl, by decide⟩

/-- A3, and the last byte of A2's trace read with CCITT_XOROUT = 0xFFFF. -/
theorem test_crccByte : (∃ t, exec (.crccByte 0x00) State.reset = .next t ∧ t.readReg 0x05 = 0x0F87) ∧
    ∃ t, exec (.crccByte 0x39)
      { State.reset with crcc := 0xF795, cfg := { Config.thisHardware with ccittXorout := 0xFFFF } } = .next t ∧
      t.readReg 0x05 = 0x906E :=
  ⟨⟨_, rfl, by decide⟩, ⟨_, rfl, by decide⟩⟩

/-- L1. -/
theorem test_lrcInit : ∃ t, exec .lrcInit { State.reset with lrc := 0x12 } = .next t ∧ t.readReg 0x06 = 0x00FF ∧
    t.readReg 0x07 = 0x0000 := ⟨_, rfl, by decide⟩

/-- L3's last byte: 0x8E after ETX, so 0x8D before it. -/
theorem test_lrcByte : ∃ t, exec (.lrcByte 0x03) { State.reset with lrc := 0x8D } = .next t ∧ t.readReg 0x06 = 0x008E ∧
    t.readReg 0x07 = 0x0071 := ⟨_, rfl, by decide⟩

/-- B9. -/
theorem test_bufClear : ∃ t, exec .bufClear { idle [0x78] with cls := .new, chk := 0xDD91 } = .next t ∧
    t.readReg 0x08 = 0 ∧ t.readReg 0x0A = 0 ∧ t.readReg 0x0B = 0 ∧ t.tbuf.read 0 = 0x78 := ⟨_, rfl, by decide⟩

/-- B6. -/
theorem test_bufPush : ∃ t, exec (.bufPush 0x2F) State.reset = .next t ∧ t.readBuf .tbuf 0 = 0x2F ∧ t.readReg 0x08 = 1 ∧
    t.readReg 0x01 = 0x0010 := ⟨_, rfl, by decide⟩

/-- B8: the ninth byte is dropped. -/
theorem test_bufPush_full : ∃ t, exec (.bufPush 0x79) (idle [0x78, 0x78, 0x78, 0x78, 0x78, 0x78, 0x78, 0x78]) = .next t ∧
    t.readReg 0x08 = 8 ∧ t.readBuf .tbuf 7 = 0x78 ∧ t.readReg 0x01 = 0x0090 := ⟨_, rfl, by decide⟩

/-- K1 and K7. -/
theorem test_classify : (∃ t, exec .classify (idle [0x21, 0x0D, 0x0A]) = .next t ∧ t.readReg 0x0A = 1) ∧
    ∃ t, exec .classify (idle [0x21, 0x30, 0x30, 0x30, 0x30, 0x0D, 0x0A]) = .next t ∧ t.readReg 0x0A = 2 ∧
      t.readReg 0x0B = 0x18C0 := ⟨⟨_, rfl, by decide⟩, ⟨_, rfl, by decide +kernel⟩⟩

/-- K11. -/
theorem test_classify_short : ∃ t, exec .classify (idle [0x21, 0x0D]) = .next t ∧ t.readReg 0x0A = 3 := ⟨_, rfl, by decide⟩

/-- P3: STATUS reads 0x0001 while a scan from reset runs. -/
theorem test_frScan : ∃ t, exec .frScan State.reset = .next t ∧ t.readReg 0x01 = 0x0001 ∧ t.pending = some .rx :=
  ⟨_, rfl, by decide⟩

/-- F7c: LF overflows behind "/ABCDE!" CR in a buffer of 8 bytes, 9 failed bytes. -/
theorem test_frScan_overflow : ∃ t,
    takeMove (.respond (.byte 0x0A)) (scan .tail [0x2F, 0x41, 0x42, 0x43, 0x44, 0x45, 0x21, 0x0D] 1) = .next t ∧
      t.readReg 0x08 = 0 ∧ t.readReg 0x09 = 9 ∧ t.status.ovf = true ∧ t.frPhase = .hunt := ⟨_, rfl, by decide⟩

/-- The start of every D0 transcript, and D0RES at the start. -/
theorem test_d0Cycle : ∃ t, exec .d0Cycle { State.reset with d0res := { resetD0res with mode := .c } } = .next t ∧
    t.history = [.setbaud 0] ∧ t.readReg 0x0C = 0x0070 := ⟨_, rfl, by decide⟩

/-- M6: "/ABC5" CR LF begins the ACK in mode C at rate code 5. -/
theorem test_d0Cycle_mode : ∃ t,
    takeMove (.respond (.byte 0x0A)) (ident [0x2F, 0x41, 0x42, 0x43, 0x35, 0x0D]) = .next t ∧
      t.readReg 0x0C = 0x0053 ∧ t.pending = some (.tx 0x06) := ⟨_, rfl, by decide⟩

/-- H1. -/
theorem test_busy_write : ∃ t, takeMove (.hostWrite 0x03 9)
    { scan .hunt [] 0 with status := { resetStatus with busy := true, res := .illegalCmd } } = .next t ∧
      t.readReg 0x01 = 0x00A3 ∧ t.readReg 0x03 = 0 := ⟨_, rfl, by decide⟩

/-- P3: while BUSY = 1 STATUS reads 0x0001 and `wait.idle` reads on; after the end it is left. -/
theorem test_waits_while_busy : ∃ q, HostRun.turn ⟨[.readUntilIdle], scan .hunt [] 0⟩ .host = .next q ∧
    q.acts = [.readUntilIdle] ∧ q.block.lastRead = some (.word 0x0001) := ⟨_, rfl, by decide, by decide⟩
theorem test_wait_ends_when_idle : ∃ q, HostRun.turn ⟨[.readUntilIdle], (scan .hunt [] 0).ended .ok⟩ .host = .next q ∧
    q.acts = [] ∧ q.block.lastRead = some (.word 0x0010) := ⟨_, rfl, by decide, by decide⟩

/-! ### States and operands that meet the statements' hypotheses -/

theorem witness_OperandRefused : (0x01 : Byte) ≠ 0 ∧ (idle []).status.busy = false ∧ (idle []).eng = .idle := by decide

theorem witness_IllegalWordOnlyReportsIllegalCmd :
    (idle []).status.busy = false ∧ (idle []).eng = .idle ∧ 0x0C ≤ opcode 0x0C00 ∧ 0x0C ≤ opcode 0xFFFF ∧
      (opcode 0x0001 ∈ zOpcodes ∧ imm8 0x0001 ≠ 0) ∧ opcode 0x0BFF ∈ zOpcodes ∧ imm8 0x0BFF ≠ 0 := by decide

theorem witness_StepRunsTheWrittenCommand :
    ({ idle [] with inbox := [.hostWrite 0x00 0x08FF] } : State).inbox = .hostWrite 0x00 0x08FF :: [] ∧
      decodeCommand 0x08FF = .instr (.bufPush 0xFF) := by decide

theorem witness_StepTakesTheNextMove :
    ({ idle [] with inbox := [.reset] } : State).inbox = .reset :: [] ∧ (idle []).inbox = [] := by decide

theorem witness_NopOnlyClearsRejAndSetsOk :
    ({ idle [] with status := { busy := false, rej := true, ovf := false, res := .illegalCmd } } : State).status =
      { busy := false, rej := true, ovf := false, res := .illegalCmd } := by decide

theorem witness_InitCommandsSetTheirAccumulators : (idle []).status.busy = false ∧
    (idle []).cfg.ccittXorout = 0x0000 ∧ ∃ t, exec .lrcInit (idle []) = .next t := ⟨by decide, by decide, _, rfl⟩

theorem witness_CrcaByteFeedsTheByte : (idle []).status.busy = false := by decide

theorem witness_CrccByteFeedsTheByte : (idle []).status.busy = false := by decide

theorem witness_LrcByteXorsTheByte : (idle []).status.busy = false ∧
    (∃ t, execAll [.lrcByte 0xFF, .lrcByte 0xFF] (idle []) = .next t) ∧ ∃ t, exec (.lrcByte 0x00) (idle []) = .next t :=
  ⟨by decide, ⟨_, rfl⟩, ⟨_, rfl⟩⟩

theorem witness_AnyChangedByteChangesTheChecksums : (0x58 : Byte) ≠ 0x59 := by decide

/-- The least old-style and new-style telegrams, and the empty one. -/
theorem witness_ClassifyReportsTheTail :
    (idle [0x21, 0x0D, 0x0A]).status.busy = false ∧ 3 = (idle [0x21, 0x0D, 0x0A]).bufLen.toNat ∧
      (idle [0x21, 0x0D, 0x0A]).tbuf.read 0 = 0x21 ∧ (idle [0x21, 0x0D, 0x0A]).tbuf.read 1 = 0x0D ∧
      (idle [0x21, 0x0D, 0x0A]).tbuf.read 2 = 0x0A ∧
      hasNewTail (idle [0x21, 0x30, 0x39, 0x46, 0x66, 0x0D, 0x0A]).telegram = true ∧ (idle []).bufLen.toNat = 0 := by decide

theorem witness_BufClearEmptiesTheBuffer : (idle [0x2F]).status.busy = false := by decide

/-- A full buffer, one with room for one byte, and an empty one. -/
theorem witness_BufPushAppendsOrReportsOverflow :
    (idle [1, 2, 3, 4, 5, 6, 7, 8]).bufLen.toNat = (idle [1, 2, 3, 4, 5, 6, 7, 8]).cfg.capacity ∧
      (idle [1, 2, 3, 4, 5, 6, 7]).bufLen.toNat ≠ (idle [1, 2, 3, 4, 5, 6, 7]).cfg.capacity ∧
      (idle [1, 2, 3, 4, 5, 6, 7]).tbuf.wf = true ∧ (idle []).cfg.capacity = 8 ∧ (idle []).bufLen = 0 ∧
      (idle []).eng = .idle ∧ (idle []).status.busy = false := by decide

theorem witness_PushedBytesFormTheTelegramInOrder : (idle []).BufferInv ∧ (idle []).status.busy = false ∧
    (idle []).bufLen.toNat + [1, 2, 3, 4, 5, 6, 7, (8 : Byte)].length ≤ (idle []).cfg.capacity :=
  ⟨bufferInv_empty, by decide, by decide⟩

theorem witness_BusyWritesOnlySetRej : (scan .hunt [] 0).status.busy = true := by decide

theorem witness_ConfigAndBudgetWritesStore : (idle []).status.busy = false := by decide

theorem witness_OtherAddressesIgnoreWrites :
    ((0x01 : RegAddr) ≠ 0x00 ∧ (0x01 : RegAddr) ≠ 0x02 ∧ (0x01 : RegAddr) ≠ 0x03) ∧
      ((0xFF : RegAddr) ≠ 0x00 ∧ (0xFF : RegAddr) ≠ 0x02 ∧ (0xFF : RegAddr) ≠ 0x03) ∧ (0x0F : RegAddr) ≤ 0x0F := by decide

/-- The last byte below the length, the first and the last undefined one, and the first beyond the capacity. -/
theorem witness_BufferReadFollowsLengthAndCapacity :
    let s := { idle [1, 2, 3] with idLen := 5 }
    (2 : Word).toNat < s.bufLen.toNat ∧ s.bufLen.toNat ≤ (3 : Word).toNat ∧ (7 : Word).toNat < s.cfg.capacity ∧
      s.cfg.capacity ≤ (8 : Word).toNat ∧ (4 : Word).toNat < s.idLen.toNat ∧ s.idLen.toNat ≤ (5 : Word).toNat ∧
      (7 : Word).toNat < s.cfg.identCap ∧ s.cfg.identCap ≤ (8 : Word).toNat := by decide

theorem witness_ResponsesWithoutAMoveAreRefused :
    (idle []).pending = none ∧ (cycle .settle (.wait 2700) []).pending = some (.wait 2700) ∧
      (cycle .tel .rx []).pending = some .rx ∧ (cycle .flush .flush []).pending = some .flush := by decide

theorem witness_RaisingAResultEndsTheCommand :
    (idle []).eng = .idle ∧ (scan .hunt [] 0).eng ≠ .idle ∧ ResultCode.timeout ≠ .ok ∧
      ResultCode.timeout ≠ .lrcMismatch := by decide

theorem witness_ResIsWrittenOnlyWhenACommandEnds :
    (scan .hunt [] 0).PortInv ∧
      (∃ t, takeMove (.respond .timeout) (scan .hunt [] 0) = .next t ∧ t.status.res ≠ (scan .hunt [] 0).status.res) ∧
      (idle []).PortInv ∧
      ∃ t, takeMove (.hostWrite 0x00 0x0000) (idle []) = .next t ∧ t.status.res ≠ (idle []).status.res :=
  ⟨⟨by decide, by decide, by decide, fun r h => by cases h; rfl⟩, ⟨_, rfl, by decide⟩,
    ⟨by decide, by decide, by decide, fun r h => by cases h⟩, ⟨_, rfl, by decide⟩⟩

/-- A move for every clause that changes what the clause is about. -/
theorem witness_RegistersHaveOnlyTheirWriters :
    (∃ t, takeMove (.hostWrite 0x00 0x0201) (idle []) = .next t ∧ t.crca ≠ (idle []).crca) ∧
      (∃ t, takeMove (.hostWrite 0x00 0x0400) (idle []) = .next t ∧ t.crcc ≠ (idle []).crcc) ∧
      (∃ t, takeMove (.hostWrite 0x00 0x0601) (idle []) = .next t ∧ t.lrc ≠ (idle []).lrc) ∧
      (∃ t, takeMove (.hostWrite 0x02 0xFFFF) (idle []) = .next t ∧ t.wakeEn ≠ (idle []).wakeEn) ∧
      (∃ t, takeMove (.hostWrite 0x03 0xFFFF) (idle []) = .next t ∧ t.budget ≠ (idle []).budget) ∧
      ((idle []).PortInv ∧ ∃ t, takeMove (.hostWrite 0x00 0x0841) (idle []) = .next t ∧ t.bufLen ≠ (idle []).bufLen ∧
        t.tbuf ≠ (idle []).tbuf) ∧
      (∃ t, takeMove (.respond (.byte 0x00)) (scan .hunt [] 0) = .next t ∧ t.failCnt ≠ (scan .hunt [] 0).failCnt) ∧
      (∃ t, takeMove (.hostWrite 0x00 0x0900) (idle []) = .next t ∧ t.cls ≠ (idle []).cls) ∧
      (∃ t, takeMove (.respond (.byte 0x2F)) (ident []) = .next t ∧ t.idLen ≠ (ident []).idLen) ∧
      (∃ t, takeMove (.hostWrite 0x03 9) (scan .hunt [] 0) = .next t ∧ t.status.rej ≠ (scan .hunt [] 0).status.rej) ∧
      (∃ t, takeMove (.hostWrite 0x00 0x0A00) (idle []) = .next t ∧ t.status.busy ≠ (idle []).status.busy) ∧
      ∃ t, takeMove (.respond .timeout) (scan .hunt [] 0) = .next t ∧
        t.status.busy ≠ (scan .hunt [] 0).status.busy :=
  ⟨⟨_, rfl, by decide⟩, ⟨_, rfl, by decide⟩, ⟨_, rfl, by decide⟩, ⟨_, rfl, by decide⟩, ⟨_, rfl, by decide⟩,
    ⟨⟨by decide, by decide, by decide, fun r h => by cases h⟩, _, rfl, by decide, by decide⟩, ⟨_, rfl, by decide⟩,
    ⟨_, rfl, by decide⟩, ⟨_, rfl, by decide⟩, ⟨_, rfl, by decide⟩, ⟨_, rfl, by decide⟩, ⟨_, rfl, by decide⟩⟩

theorem witness_CommandsLeaveOtherBytesAndParameters :
    (∃ t, exec (.bufPush 0x2F) (idle []) = .next t) ∧ (1 : Nat) ≠ (idle []).bufLen.toNat ∧
      (∀ d, Instr.nop ≠ .bufPush d) ∧ ∃ t, step (idle []) = .next t :=
  ⟨⟨_, rfl⟩, by decide, by simp, ⟨_, rfl⟩⟩

theorem witness_OutcomesFollowTheTable : ({ idle [] with cls := .old } : State).cls = .old ∧
    ({ idle [] with cls := .new } : State).cls = .new ∧ ({ idle [] with cls := .malformed } : State).cls = .malformed := by
  decide

theorem witness_ScanStartsHunting : (idle [0x2F]).status.busy = false := by decide

/-- A byte after which the scan goes on, and one after which it has ended. -/
theorem witness_ScanActsOnEachResponse :
    (scan .hunt [] 0).ScanWaits .hunt ∧ (({ scan .hunt [] 0 with pending := none } : State).frByte 0x2F).eng = .fr ∧
      (scan .tail [0x2F, 0x21, 0x0D] 1).ScanWaits .tail ∧
      (({ scan .tail [0x2F, 0x21, 0x0D] 1 with pending := none } : State).frByte 0x0A).eng ≠ .fr :=
  ⟨scan_waits _ _ _, by decide, scan_waits _ _ _, by decide⟩

theorem witness_HuntWaitsForTheStartMarker : (scan .hunt [] 0).ScanWaits .hunt ∧ (0x2E : Byte) ≠ 0x2F :=
  ⟨scan_waits _ _ _, by decide⟩

theorem witness_StartMarkerInBodyRestarts : (scan .body [0x2F, 0x41] 0).ScanWaits .body := scan_waits _ _ _

theorem witness_BodyStoresEveryOtherByte :
    (scan .body [0x2F, 1, 2, 3, 4, 5, 6, 7] 0).ScanWaits .body ∧
      (scan .body [0x2F, 1, 2, 3, 4, 5, 6, 7] 0).bufLen.toNat = (scan .body [0x2F, 1, 2, 3, 4, 5, 6, 7] 0).cfg.capacity ∧
      (scan .body [0x2F, 1, 2, 3, 4, 5, 6] 0).ScanWaits .body ∧
      (scan .body [0x2F, 1, 2, 3, 4, 5, 6] 0).bufLen.toNat ≠ (scan .body [0x2F, 1, 2, 3, 4, 5, 6] 0).cfg.capacity ∧
      (0x22 : Byte) ≠ 0x2F ∧ (0x22 : Byte) ≠ 0x21 ∧ (0x21 : Byte) ≠ 0x2F :=
  ⟨scan_waits _ _ _, by decide, scan_waits _ _ _, by decide, by decide, by decide, by decide⟩

/-- CR LF, CR CR, four digits CR LF, four digits and no CR, a chunk that is not complete, and a full buffer. -/
theorem witness_TailChunkIsCheckedWhenComplete :
    (∀ t n, (scan .tail t n).ScanWaits .tail) ∧
      (scan .tail [0x2F, 1, 2, 3, 4, 5, 0x21, 0x0D] 1).bufLen.toNat =
        (scan .tail [0x2F, 1, 2, 3, 4, 5, 0x21, 0x0D] 1).cfg.capacity ∧
      (scan .tail [0x2F, 0x21, 0x0D] 1).bufLen.toNat ≠ (scan .tail [0x2F, 0x21, 0x0D] 1).cfg.capacity ∧
      (let u := (scan .tail [0x2F, 0x21, 0x0D] 1).appendTbuf 0x0A
      u.tailN + 1 = 2 ∧ u.tbuf.read 2 = 0x0D ∧ u.tbuf.read 3 = 0x0A) ∧
      (let u := (scan .tail [0x2F, 0x21, 0x0D] 1).appendTbuf 0x0D
      u.tailN + 1 = 2 ∧ u.tbuf.read 2 = 0x0D ∧ u.tbuf.read 3 ≠ 0x0A) ∧
      (let u := { (scan .tail [0x2F, 0x21, 0x30, 0x39, 0x41, 0x66, 0x0D] 5).appendTbuf 0x0A with tailN := 6 }
      u.newTailOk = true) ∧
      (let u := { (scan .tail [0x2F, 0x21, 0x30, 0x39, 0x41, 0x67, 0x0D] 5).appendTbuf 0x0A with tailN := 6 }
      u.newTailOk = false) ∧
      (let u := (scan .tail [0x2F, 0x21] 0).appendTbuf 0x0D
      u.tailN + 1 ≠ 6 ∧ u.tailN + 1 ≠ 2) :=
  ⟨scan_waits _, by decide⟩

theorem witness_FailedBytesCountAgainstTheBudget :
    (scan .hunt [] 0).eng = .fr ∧ (scan .hunt [] 0).budget = 0 ∧
      (let s := { scan .hunt [] 0 with budget := 2, failCnt := 1 }
      (min (s.failCnt.toNat + 1) 0xFFFF ≤ s.budget.toNat ∧ s.budget.toNat < min (s.failCnt.toNat + 2) 0xFFFF)) ∧
      ({ scan .hunt [] 0 with budget := 0xFFFF } : State).budget = 0xFFFF := by decide

theorem witness_OverflowAndDiscardReturnToHunt : (scan .body [0x2F] 0).eng = .fr ∧ (scan .body [0x2F] 0).budget = 0 := by
  decide

/-- A garbled prefix "/A" and a telegram of exactly the capacity, once old-style and once new-style, at the budget. -/
theorem witness_ScanResynchronizesOnAValidTelegram :
    ({ idle [] with budget := 2 } : State).BufferInv ∧ (idle []).status.busy = false ∧ (0x21 : Byte) ∉ [0x2F, 0x41] ∧
      (0x2F : Byte) ∉ [0x41, 0x42, 0x43, 0x44] ∧ (0x21 : Byte) ∉ [0x41, 0x42, 0x43, 0x44] ∧
      (0x2F :: [0x41, 0x42, 0x43, (0x44 : Byte)] ++ 0x21 :: [0x0D, 0x0A]).length = (idle []).cfg.capacity ∧
      (0x2F :: [] ++ 0x21 :: [0x30, 0x39, 0x41, (0x66 : Byte), 0x0D, 0x0A]).length = (idle []).cfg.capacity ∧
      isHex 0x30 ∧ isHex 0x39 ∧ isHex 0x41 ∧ isHex 0x66 ∧
      [0x2F, (0x41 : Byte)].length ≤ ({ idle [] with budget := 2 } : State).budget.toNat :=
  ⟨⟨by decide, by decide, by decide, by decide, by decide, by decide, by decide⟩, by decide⟩

theorem witness_ScansOfTheSameStreamEndAlike :
    (idle [1]).cfg.wf = true ∧ (idle [1]).tbuf.wf = true ∧ (idle [2, 3]).tbuf.wf = true ∧
      (idle [1]).status.busy = false ∧ (idle [2, 3]).status.busy = false ∧
      (idle [1]).cfg.capacity = (idle [2, 3]).cfg.capacity ∧ (idle [1]).budget = (idle [2, 3]).budget := by decide

theorem witness_AcceptedTelegramIsNeverMalformed :
    (scan .tail [0x2F, 0x41, 0x21, 0x0D] 1).Inv ∧ (scan .tail [0x2F, 0x41, 0x21, 0x0D] 1).eng = .fr ∧
      ∃ t, takeMove (.respond (.byte 0x0A)) (scan .tail [0x2F, 0x41, 0x21, 0x0D] 1) = .next t ∧ t.eng = .idle ∧
        t.status.res = .ok :=
  ⟨scanTail_inv, by decide, _, rfl, by decide, by decide⟩

theorem witness_CycleStartsAtTheSlowestRate : (idle []).status.busy = false := by decide

theorem witness_CycleEndsOnAnyIoError :
    (cycle .bccRd .rx []).CycleWaits .bccRd .rx ∧ (∀ ms, Request.rx ≠ .wait ms) ∧
      (cycle .setbaud0 (.setbaud 0) []).CycleWaits .setbaud0 (.setbaud 0) ∧ (∀ ms, Request.setbaud 0 ≠ .wait ms) :=
  ⟨cycle_waits _ _ _, by simp, cycle_waits _ _ _, by simp⟩

theorem witness_CycleWakesAndSignsOnInOrder :
    (idle []).status.busy = false ∧ (idle []).wakeEn = false ∧ ({ idle [] with wakeEn := true } : State).wakeEn = true := by
  decide

/-- An empty line, a full one, one whose last byte is no CR, and one that ends in CR. -/
theorem witness_IdentReadStoresOneLine :
    (∀ l, (ident l).CycleWaits .ident .rx) ∧ (ident []).cfg.wf = true ∧ (ident []).idLen = 0 ∧ (0x41 : Byte) ≠ 0x2F ∧
      (let s := ident [0x2F, 1, 2, 3, 4, 5, 6, 7]
      s.idLen.toNat ≤ s.cfg.identCap ∧ s.idLen.toNat = s.cfg.identCap) ∧
      (let s := ident [0x2F, 1, 2, 3, 4, 5, 6]
      s.idLen.toNat ≤ s.cfg.identCap ∧ s.idLen.toNat ≠ s.cfg.identCap ∧ s.idLen ≠ 0 ∧
        s.ibuf.read (s.idLen.toNat - 1) ≠ 0x0D) ∧
      (let s := ident [0x2F, 1, 2, 3, 4, 5, 0x0D]
      s.idLen.toNat ≤ s.cfg.identCap ∧ s.idLen.toNat ≠ s.cfg.identCap ∧ s.idLen ≠ 0 ∧
        s.ibuf.read (s.idLen.toNat - 1) = 0x0D) :=
  ⟨ident_waits, by decide⟩

/-- The fifth character at both ends of each range, with and without the sixth and seventh ones that matter. -/
theorem witness_ModeDetectFollowsTheFifthCharacter :
    [0x2F, 0x41, 0x42, (0x43 : Byte)].length < 5 ∧ ([0x2F, 0x41, 0x42, 0x43, 0x30] : List Byte)[4]? = some 0x30 ∧
      ([0x2F, 0x41, 0x42, 0x43, 0x30] : List Byte)[5]? ≠ some 0x5C ∧
      ([0x2F, 0x41, 0x42, 0x43, 0x36, 0x5C, 0x32] : List Byte)[5]? = some 0x5C ∧
      ([0x2F, 0x41, 0x42, 0x43, 0x36, 0x5C, 0x32] : List Byte)[6]? = some 0x32 ∧
      ([0x2F, 0x41, 0x42, 0x43, 0x36, 0x5C] : List Byte)[6]? ≠ some 0x32 ∧ 0x30 ≤ (0x30 : Byte).toNat ∧
      (0x36 : Byte).toNat ≤ 0x36 ∧ 0x41 ≤ (0x41 : Byte).toNat ∧ (0x47 : Byte).toNat ≤ 0x47 ∧
      (0x20 ≤ (0x20 : Byte).toNat ∧ ¬0x30 ≤ (0x20 : Byte).toNat ∧ ¬0x41 ≤ (0x20 : Byte).toNat) ∧
      ((0x7E : Byte).toNat ≤ 0x7E ∧ ¬(0x7E : Byte).toNat ≤ 0x36 ∧ ¬(0x7E : Byte).toNat ≤ 0x47) ∧
      (0x1F : Byte).toNat < 0x20 ∧ 0x7E < (0x7F : Byte).toNat := by decide

/-- "/AB" is too short, and "/ABC" with the fifth characters 9, A and 5, and 5 with `\`, gives modes A, B, C and E. -/
theorem witness_CompleteLineNegotiatesTheMode :
    (∀ l, (ident l).CycleWaits .ident .rx) ∧ (ident [0x2F, 0x41, 0x42, 0x43, 0x35, 0x5C, 0x0D]).BufferInv ∧
      (let s := ident [0x2F, 0x41, 0x42, 0x43, 0x35, 0x5C, 0x0D]
      s.idLen.toNat ≠ s.cfg.identCap ∧ s.idLen ≠ 0 ∧ s.ibuf.read (s.idLen.toNat - 1) = 0x0D ∧
        modeDetect (s.ibuf.firstBytes (s.idLen.toNat - 1)) = .detected .e 5) ∧
      modeDetect [0x2F, 0x41, 0x42] = .raises .invalidIdent ∧
      modeDetect [0x2F, 0x41, 0x42, 0x43, 0x39] = .detected .a 0 ∧
      modeDetect [0x2F, 0x41, 0x42, 0x43, 0x41] = .detected .b 0 ∧
      modeDetect [0x2F, 0x41, 0x42, 0x43, 0x35] = .detected .c 5 :=
  ⟨ident_waits, ⟨by decide, by decide, by decide, by decide, by decide, by decide, by decide⟩, by decide⟩

theorem witness_AckThenWaitThenSwitch :
    (cycle .ackTx (.tx 0x06) []).CycleWaits .ackTx (.tx 0x06) ∧ (cycle .ackTx (.tx 0x06) []).seqK = 0 ∧
      (cycle .baudB (.setbaud 0) []).CycleWaits .baudB (.setbaud (cycle .baudB (.setbaud 0) []).rateCode) :=
  ⟨cycle_waits _ _ _, by decide, cycle_waits _ _ _⟩

theorem witness_FirstStxSeedsTheLrc :
    (∀ b n, (tel b n []).CycleWaits .tel .rx) ∧ (tel false 0 []).d0res.stxSeen = false ∧
      (tel false 0 []).d0res.bangSeen = false ∧ (tel true 1 []).d0res.bangSeen = true ∧
      (tel true 1 []).bangCnt + 1 ≠ (tel true 1 []).cfg.bangBudget :=
  ⟨fun b n => tel_waits b n [], by decide⟩

theorem witness_EtxEndsTheTelegram :
    (tel false 0 []).CycleWaits .tel .rx ∧ (tel false 0 []).d0res.stxSeen = false ∧
      ({ tel false 0 [] with d0res := { resetD0res with stxSeen := true } } : State).CycleWaits .tel .rx :=
  ⟨tel_waits _ _ _, by decide, rfl, rfl, rfl⟩

theorem witness_TelegramBytesAreStoredAndFolded :
    (∀ b n t, (tel b n t).CycleWaits .tel .rx) ∧ (0x04 : Byte) ≠ 0x03 ∧ (0x04 : Byte) ≠ 0x02 ∧ (0x04 : Byte) ≠ 0x21 ∧
      (tel false 0 [1, 2, 3, 4, 5, 6, 7, 8]).bufLen.toNat = (tel false 0 [1, 2, 3, 4, 5, 6, 7, 8]).cfg.capacity ∧
      (tel false 0 [1, 2, 3, 4, 5, 6, 7]).bufLen.toNat ≠ (tel false 0 [1, 2, 3, 4, 5, 6, 7]).cfg.capacity ∧
      (tel false 0 []).d0res.bangSeen = false ∧ (tel true 1 []).d0res.bangSeen = true ∧
      (tel true 1 []).bangCnt + 1 ≠ (tel true 1 []).cfg.bangBudget :=
  ⟨tel_waits, by decide⟩

theorem witness_BangEndsAnUnframedTelegram :
    (∀ b n t, (tel b n t).CycleWaits .tel .rx) ∧ (tel false 0 []).d0res.etxSeen = false ∧
      (tel false 0 []).d0res.bangSeen = false ∧ (tel true 2 []).d0res.bangSeen = true ∧
      (tel true 2 []).bangCnt + 1 = (tel true 2 []).cfg.bangBudget ∧ (tel true 2 []).d0res.stxSeen = false ∧
      (tel true 2 []).bufLen.toNat ≠ (tel true 2 []).cfg.capacity ∧ (0x0A : Byte) ≠ 0x03 ∧ (0x0A : Byte) ≠ 0x02 :=
  ⟨tel_waits, by decide⟩

theorem witness_BlockCheckSetsTheVerdict : (cycle .bccRd .rx [0x41]).CycleWaits .bccRd .rx := cycle_waits _ _ _

theorem witness_SignOffThenTerminalResult :
    let s := { cycle .tel .rx [0x41] with pending := none }
    s.eng = .d0 ∧ s.pending = none ∧ s.d0res.mode = .none ∧ s.d0res.verdict ≠ .failed ∧ drained.d0res.mode = .c ∧
      drained.d0res.verdict = .failed := by decide

/-- A body of exactly the room left, with a `!` whose budget is not used up. -/
theorem witness_FrameHasTheXorAsBlockCheck :
    let s := tel false 0 [1, 2, 3, 4]
    let body : List Byte := [0x41, 0x21, 0x0D, 0x0A]
    s.CycleWaits .tel .rx ∧ s.BufferInv ∧ s.d0res.stxSeen = false ∧ 0x03 ∉ body ∧
      s.bufLen.toNat + body.length ≤ s.cfg.capacity ∧
      (s.d0res.bangSeen = true → s.bangCnt + 1 + body.length < s.cfg.bangBudget) ∧
      (s.d0res.bangSeen = false →
        ∀ pre post, body = pre ++ 0x21 :: post → 0x21 ∉ pre → post.length < s.cfg.bangBudget) := by
  refine ⟨tel_waits _ _ _, ⟨by decide, by decide, by decide, by decide, by decide, by decide, by decide⟩, by decide,
    by decide, by decide, by decide, ?_⟩
  intro _ pre post h hn
  rcases pre with _ | ⟨a, _ | ⟨b, pre⟩⟩
  · simp at h
  · simp only [List.cons_append, List.nil_append, List.cons.injEq] at h
    rw [← h.2.2]
    decide
  · simp only [List.cons_append, List.cons.injEq] at h
    exact absurd (by simp [← h.2.1]) hn

/-- A frame right after a stored `!`, of the one byte the budget leaves room for. -/
theorem witness_FrameHasTheXorAsBlockCheck_after_bang :
    let s := tel true 0 [1, 2, 3, 4]
    let body : List Byte := [0x21]
    s.CycleWaits .tel .rx ∧ s.BufferInv ∧ s.d0res.stxSeen = false ∧ 0x03 ∉ body ∧
      s.bufLen.toNat + body.length ≤ s.cfg.capacity ∧
      (s.d0res.bangSeen = true → s.bangCnt + 1 + body.length < s.cfg.bangBudget) ∧
      (s.d0res.bangSeen = false →
        ∀ pre post, body = pre ++ 0x21 :: post → 0x21 ∉ pre → post.length < s.cfg.bangBudget) :=
  ⟨tel_waits _ _ _, ⟨by decide, by decide, by decide, by decide, by decide, by decide, by decide⟩, by decide,
    by decide, by decide, by decide, fun h => absurd h (by decide)⟩

theorem witness_LrcMismatchKeepsTheTelegram :
    drained.Inv ∧ drained.eng = .d0 ∧ ∃ t, step drained = .next t ∧ t.eng = .idle ∧ t.status.busy = false ∧
      t.status.res = .lrcMismatch :=
  ⟨drained_inv, by decide, _, rfl, by decide, by decide, by decide⟩

theorem witness_AssemblerStatementsAreTheirMoves : 255 < 256 ∧
    (∃ t, takeMove (.hostWrite 0x00 0x0000) (idle []) = .next t) ∧
    (∃ q, HostRun.turns [.host] ⟨[.readUntilIdle], scan .hunt [] 0⟩ = .next q ∧ q.acts = [.readUntilIdle]) ∧
    ∃ q, HostRun.turns [.host, .transport .timeout, .host] ⟨[.readUntilIdle], scan .hunt [] 0⟩ = .next q ∧ q.acts = [] :=
  ⟨by decide, ⟨_, rfl⟩, ⟨_, rfl, by decide⟩, _, rfl, by decide⟩

theorem witness_EveryStepKeepsTheInvariant : drained.Inv ∧ ∃ t, step drained = .next t := ⟨drained_inv, _, rfl⟩

theorem witness_EveryStepStaysFreeOfNak : drained.Inv ∧ drained.NakFree ∧ ∃ t, step drained = .next t :=
  ⟨drained_inv, ⟨by decide, by decide⟩, _, rfl⟩

/-- Two blocks that hold different bytes behind the telegram "/A". -/
theorem witness_UndefinedBytesNeverMatter :
    (leftover 0x55).Inv ∧ (leftover 0x66).Inv ∧ leftover 0x55 ≠ leftover 0x66 ∧
      SameDefined (leftover 0x55) (leftover 0x66) := by
  refine ⟨leftover_inv.1, leftover_inv.2, by decide, rfl, ?_, ?_⟩
  · intro i hi
    have h2 : i < 2 := hi
    interval_cases i <;> decide
  · intro i hi
    exact absurd hi (by simp [leftover, idle, State.reset])

end Sys2Proof.Tests
end

section

/-! The block's invariant in the form steps keep it: a part every phase shares (`State.Sound`), and beside it
what an idle block, a waiting scan or a waiting cycle adds. -/

namespace Sys2Proof.Machine

variable {s t : State}

/-! ### The shared part -/

/-- The ranges of the D0 engine's registers, whatever the engine does (spec/10_state.md R115, R122). -/
structure State.CycleRanges (s : State) : Prop where
  seqK_le : s.seqK ≤ max s.cfg.wakeCount 5
  bangCnt_le : s.bangCnt ≤ s.cfg.bangBudget
  rateCode_le : s.rateCode ≤ 6
  baud_ne : s.d0res.mode ≠ .none → s.d0res.baud ≤ 6
  baud_none : s.d0res.mode = .none → s.d0res.baud = 7
  mode_ne_d : s.d0res.mode ≠ .d

/-- The part of the invariant that names neither the running engine nor its phase. -/
structure State.Sound (s : State) : Prop where
  buffers : s.BufferInv
  tailN_le : s.tailN ≤ 6
  ranges : s.CycleRanges
  tailClass : s.ClassInv

theorem State.Inv.sound (h : s.Inv) : s.Sound where
  buffers := h.buffers
  tailN_le := h.scan.tailN_le
  ranges := { h.cycle with }
  tailClass := h.tailClass

/-- The fields `State.Sound` reads; every other one is blanked out. -/
def State.soundPart (s : State) : State :=
  { State.reset with
    cfg := s.cfg, bufLen := s.bufLen, idLen := s.idLen, tbuf := s.tbuf, ibuf := s.ibuf, tailN := s.tailN, seqK := s.seqK
    bangCnt := s.bangCnt, rateCode := s.rateCode, cls := s.cls, chk := s.chk
    d0res := { resetD0res with mode := s.d0res.mode, baud := s.d0res.baud } }

theorem State.soundPart_sound : s.soundPart.Sound ↔ s.Sound :=
  ⟨fun h => ⟨{ h.buffers with }, h.tailN_le, { h.ranges with }, h.tailClass⟩,
    fun h => ⟨{ h.buffers with }, h.tailN_le, { h.ranges with }, h.tailClass⟩⟩

/-- A step that writes no field `State.Sound` reads keeps it. -/
theorem State.Sound.congr (h : s.Sound) (e : t.soundPart = s.soundPart) : t.Sound :=
  State.soundPart_sound.1 (e ▸ State.soundPart_sound.2 h)

/-- The fields `State.Inv` reads; every other one is blanked out. -/
def State.invPart (s : State) : State :=
  { s.soundPart with
    status := { resetStatus with busy := s.status.busy }
    d0res := s.d0res, eng := s.eng, frPhase := s.frPhase, d0Phase := s.d0Phase, zchar := s.zchar, pending := s.pending
    history := s.history }

theorem State.invPart_inv : s.invPart.Inv ↔ s.Inv :=
  ⟨fun h => ⟨{ h.port with }, { h.buffers with }, { h.scan with }, { h.cycle with }, h.tailClass⟩,
    fun h => ⟨{ h.port with }, { h.buffers with }, { h.scan with }, { h.cycle with }, h.tailClass⟩⟩

/-- A step that writes no field `State.Inv` reads keeps it. -/
theorem State.Inv.congr (h : s.Inv) (e : t.invPart = s.invPart) : t.Inv :=
  State.invPart_inv.1 (e ▸ State.invPart_inv.2 h)

/-! ### The stages of a D0 cycle -/

/-- The stages of a D0 cycle that the invariant tells apart (spec/43_d0_engine.md R601): up to ModeDetect, up to the end
of the telegram read, the block check, and what follows it. -/
inductive CycleStage where
  | detecting | reading | checking | closing

/-- The stage a phase belongs to (spec/43_d0_engine.md R602). -/
def D0Phase.stage : D0Phase → CycleStage
  | .setbaud0 | .wakeTx | .settle | .flush | .signonTx | .ident => .detecting
  | .baudB | .ackTx | .ackWait | .baudC | .tel => .reading
  | .bccRd => .checking
  | .signoffTx | .drain => .closing

/-- What the registers of a running cycle hold in a stage (spec/43_d0_engine.md R641, R653, R661, R670). -/
def State.FitsStage (s : State) : CycleStage → Prop
  | .detecting => s.d0res.mode = .none ∧ s.d0res.verdict = .notApplicable ∧ s.bangCnt < s.cfg.bangBudget
  | .reading => s.d0res.mode ≠ .none ∧ s.d0res.verdict = .notApplicable ∧ s.bangCnt < s.cfg.bangBudget
  | .checking => s.d0res.mode ≠ .none ∧ s.d0res.verdict = .notApplicable ∧
      s.d0res.stxSeen = true ∧ s.d0res.etxSeen = true ∧ s.d0res.obtained = true
  | .closing => s.d0res.mode.isNegotiated = true ∧ s.d0res.obtained = true

theorem Mode.ne_none_of_isNegotiated {m : Mode} (h : m.isNegotiated = true) : m ≠ .none := by
  rintro rfl
  cases h

/-- In a running cycle the phase-dependent clauses of `State.CycleInv` are those of the phase's stage. -/
theorem State.CycleInv.fitsStage (h : s.CycleInv) (he : s.eng = .d0) : s.FitsStage s.d0Phase.stage := by
  have hm := h.mode_before he
  have hv := h.verdict_before he
  have hb := h.bangCnt_lt he
  have hc := h.check_markers he
  have ho := h.signoff_mode he
  cases hp : s.d0Phase <;>
    simp_all [D0Phase.stage, State.FitsStage, D0Phase.beforeDetect, D0Phase.afterCheck]

theorem State.CycleRanges.cycleInv (h : s.CycleRanges) (hf : s.eng = .d0 → s.FitsStage s.d0Phase.stage) :
    s.CycleInv := by
  refine { h with bangCnt_lt := ?_, mode_before := ?_, verdict_before := ?_, signoff_mode := ?_, check_markers := ?_ }
  all_goals
    intro he
    have hs := hf he
    have hn := @Mode.ne_none_of_isNegotiated s.d0res.mode
    cases hp : s.d0Phase <;>
      simp_all [D0Phase.stage, State.FitsStage, D0Phase.beforeDetect, D0Phase.afterCheck]

end Sys2Proof.Machine
end

section

/-! The idle block and its commands: what makes it meet the invariant, what appending to a buffer keeps, and how a
running engine's result leads back to it. -/

namespace Sys2Proof.Machine

variable {s t : State}

/-! ### An idle block -/

theorem State.ScanInv.of_not_scanning (hn : s.tailN ≤ 6) (he : s.eng ≠ .fr) : s.ScanInv where
  tailN_le := hn
  hunt_empty h := absurd h he
  body_nonempty h := absurd h he
  tail_room h := absurd h he
  starts_slash h := absurd h he
  tail_bang h := absurd h he
  tail_first h := absurd h he

/-- An idle block: sound, and nothing runs or is pending. -/
structure State.Resting (s : State) : Prop where
  sound : s.Sound
  eng : s.eng = .idle
  busy : s.status.busy = false
  pending : s.pending = none

theorem State.Resting.inv (h : s.Resting) : s.Inv where
  port :=
    { busy_iff := by simp [h.busy, h.eng]
      pending_iff := by simp [h.pending, h.eng]
      pending_eq := by simp [h.pending, State.expectedRequest, h.eng]
      pending_last := by simp [h.pending] }
  buffers := h.sound.buffers
  scan := .of_not_scanning h.sound.tailN_le (by simp [h.eng])
  cycle := h.sound.ranges.cycleInv (by simp [h.eng])
  tailClass := h.sound.tailClass

theorem State.Inv.resting (h : s.Inv) (hb : s.status.busy = false) : s.Resting := by
  have he : s.eng = .idle := by simpa [hb] using h.port.busy_iff
  exact ⟨h.sound, he, hb, by simpa [he] using h.port.pending_iff⟩

theorem State.Inv.busy_of_running (h : s.Inv) (he : s.eng ≠ .idle) : s.status.busy = true := h.port.busy_iff.2 he

theorem State.Sound.withBufLen (h : s.Sound) (n : Word) (hn : n.toNat ≤ s.cfg.capacity) :
    State.Sound { s with bufLen := n } :=
  { h with buffers := { h.buffers with bufLen_le := hn }, ranges := { h.ranges with } }

/-- Whatever a running engine raises, the block is idle and sound after it. -/
theorem State.Sound.raiseResult_resting (h : s.Sound) (he : s.eng ≠ .idle) (c : ResultCode) :
    (s.raiseResult c).Resting := by
  rw [State.raiseResult_of_running c he]
  refine ⟨?_, rfl, rfl, rfl⟩
  have hl : (if c = .ok ∨ c = .lrcMismatch then s.bufLen else 0).toNat ≤ s.cfg.capacity := by
    split
    · exact h.buffers.bufLen_le
    · exact Nat.zero_le _
  exact (h.withBufLen _ hl).congr rfl

/-! ### Buffers -/

theorem State.BufferInv.capacity_pos (h : s.BufferInv) : 0 < s.cfg.capacity := by
  have := h.params
  simp only [Config.Params.wf, Bool.and_eq_true, decide_eq_true_eq] at this
  omega

theorem State.BufferInv.bangBudget_pos (h : s.BufferInv) : 0 < s.cfg.bangBudget := by
  have := h.params
  simp only [Config.Params.wf, Bool.and_eq_true, decide_eq_true_eq] at this
  omega

theorem State.BufferInv.capacities_le (h : s.BufferInv) : s.cfg.capacity ≤ 65535 ∧ s.cfg.identCap ≤ 65535 := by
  have := h.params
  simp only [Config.Params.wf, Bool.and_eq_true, decide_eq_true_eq] at this
  omega

theorem State.BufferInv.bufLen_lt (h : s.BufferInv) (hf : s.tbufFull = false) : s.bufLen.toNat < s.cfg.capacity := by
  have hle := h.bufLen_le
  have hne : ¬s.bufLen.toNat = s.cfg.capacity := by simpa [State.tbufFull] using hf
  omega

theorem State.BufferInv.idLen_lt (h : s.BufferInv) (hf : s.ibufFull = false) : s.idLen.toNat < s.cfg.identCap := by
  have hle := h.idLen_le
  have hne : ¬s.idLen.toNat = s.cfg.identCap := by simpa [State.ibufFull] using hf
  omega

/-- Appending to a telegram buffer that is not full makes the length one more. -/
theorem State.BufferInv.appendTbuf_length (h : s.BufferInv) (hf : s.tbufFull = false) (b : Byte) :
    (s.appendTbuf b).bufLen.toNat = s.bufLen.toNat + 1 :=
  State.appendTbuf_bufLen_toNat b (lt_of_lt_of_le (h.bufLen_lt hf) h.capacities_le.1)

theorem State.BufferInv.appendIbuf_length (h : s.BufferInv) (hf : s.ibufFull = false) (b : Byte) :
    (s.appendIbuf b).idLen.toNat = s.idLen.toNat + 1 :=
  State.appendIbuf_idLen_toNat b (lt_of_lt_of_le (h.idLen_lt hf) h.capacities_le.2)

theorem State.Sound.appendTbuf (h : s.Sound) (hf : s.tbufFull = false) (b : Byte) : (s.appendTbuf b).Sound :=
  have hlt := h.buffers.bufLen_lt hf
  { h with
    buffers :=
      { h.buffers with
        bufLen_le := (h.buffers.appendTbuf_length hf b).trans_le hlt
        tbuf_wf := Memory.write_wf h.buffers.tbuf_wf _ _
        tbuf_inside := Memory.write_inside h.buffers.tbuf_inside hlt b }
    ranges := { h.ranges with } }

theorem State.Sound.appendIbuf (h : s.Sound) (hf : s.ibufFull = false) (b : Byte) : (s.appendIbuf b).Sound :=
  have hlt := h.buffers.idLen_lt hf
  { h with
    buffers :=
      { h.buffers with
        idLen_le := (h.buffers.appendIbuf_length hf b).trans_le hlt
        ibuf_wf := Memory.write_wf h.buffers.ibuf_wf _ _
        ibuf_inside := Memory.write_inside h.buffers.ibuf_inside hlt b }
    ranges := { h.ranges with } }

theorem State.Sound.startCandidate (h : s.Sound) (b : Byte) : (s.startCandidate b).Sound :=
  { h with
    buffers :=
      { h.buffers with
        bufLen_le := h.buffers.capacity_pos
        tbuf_wf := Memory.write_wf h.buffers.tbuf_wf _ _
        tbuf_inside := Memory.write_inside h.buffers.tbuf_inside h.buffers.capacity_pos b }
    ranges := { h.ranges with } }

/-! ### Commands -/

theorem State.Resting.congr (h : s.Resting) (e : t.invPart = s.invPart) : t.Resting := by
  have hi := h.inv.congr e
  exact hi.resting ((congrArg (fun u : State => u.status.busy) e).trans h.busy)

/-- CLASS and CHK are cleared. -/
theorem State.Resting.clearClass (h : s.Resting) : s.clearClass.Resting :=
  ⟨⟨{ h.sound.buffers with }, h.sound.tailN_le, { h.sound.ranges with }, fun _ => rfl⟩, h.eng, h.busy, h.pending⟩

theorem classifyTail_chk (l : List Byte) (h : (classifyTail l).1 ≠ .new) : (classifyTail l).2 = 0x0000 := by
  unfold classifyTail at h ⊢
  split
  · rfl
  · split
    · simp_all
    · rfl

theorem State.Resting.pushByte (h : s.Resting) (d : Byte) : (s.pushByte d).Resting := by
  unfold State.pushByte
  split
  · rw [State.raiseResult_of_idle _ h.eng]
    exact h.congr rfl
  · rename_i hf
    have ha : (s.appendTbuf d).Resting := ⟨h.sound.appendTbuf (by simpa using hf) d, h.eng, h.busy, h.pending⟩
    exact ha.clearClass.congr rfl

/-- The start of a scan waits for its first byte. -/
theorem State.Resting.startScan_inv (h : s.Resting) : s.startScan.Inv where
  port :=
    { busy_iff := by simp [State.startScan]
      pending_iff := by simp [State.startScan]
      pending_eq := rfl
      pending_last := by simp [State.startScan] }
  buffers := { h.sound.buffers with bufLen_le := Nat.zero_le _ }
  scan :=
    { tailN_le := Nat.zero_le 6
      hunt_empty := fun _ _ => rfl
      body_nonempty := fun _ h => by cases h
      tail_room := fun _ h => by cases h
      starts_slash := fun _ h => absurd rfl h
      tail_bang := fun _ h => by cases h
      tail_first := fun _ h => by cases h }
  cycle := State.CycleRanges.cycleInv { h.sound.ranges with } (fun h => by cases h)
  tailClass := fun _ => rfl

end Sys2Proof.Machine
end

section

/-! A running scan keeps the invariant (spec/42_frame_scanner.md R501 to R509). -/

namespace Sys2Proof.Machine

variable {s t : State}

/-- A scan that runs and has consumed a response: its next request is not issued yet. -/
structure State.Scanning (s : State) : Prop where
  sound : s.Sound
  eng : s.eng = .fr
  busy : s.status.busy = true
  phases : s.ScanInv

theorem State.Inv.scanning (h : s.Inv) (he : s.eng = .fr) : s.answered.Scanning where
  sound := h.sound.congr rfl
  eng := he
  busy := h.busy_of_running (by simp [he])
  phases := { h.scan with }

/-- Issuing the next RX completes the step of a scan that runs on. -/
theorem State.Scanning.issue_inv (h : s.Scanning) : (s.issue .rx).Inv where
  port :=
    { busy_iff := by simp [h.busy, h.eng]
      pending_iff := by simp [h.eng]
      pending_eq := by simp [State.expectedRequest, h.eng]
      pending_last := by simp }
  buffers := { h.sound.buffers with }
  scan := { h.phases with }
  cycle := State.CycleRanges.cycleInv { h.sound.ranges with } (by simp [h.eng])
  tailClass := h.sound.tailClass

/-- What FrByte may leave: a scan that runs on, or an idle block. -/
def State.ScanOutcome (s : State) : Prop := s.Scanning ∨ s.Resting

theorem State.ScanOutcome.frContinue_inv (h : s.ScanOutcome) : s.frContinue.Inv := by
  rcases h with h | h
  · rw [State.frContinue, if_pos h.eng]
    exact h.issue_inv
  · rw [State.frContinue_of_ended (by simp [h.eng])]
    exact h.inv

theorem State.Scanning.raiseResult (h : s.Scanning) (c : ResultCode) : (s.raiseResult c).ScanOutcome :=
  .inr (h.sound.raiseResult_resting (by simp [h.eng]) c)

theorem State.Scanning.failAdd (h : s.Scanning) (k : Nat) : (s.failAdd k).ScanOutcome := by
  have hc : State.Scanning { s with failCnt := sat16 (s.failCnt.toNat + k) } :=
    ⟨h.sound.congr rfl, h.eng, h.busy, { h.phases with }⟩
  rcases s.failAdd_cases k with ⟨e, _⟩ | ⟨e, _⟩ <;> rw [e]
  · exact .inl hc
  · exact hc.raiseResult _

/-! ### The phases -/

/-- A scan that hunts, with no candidate. -/
theorem State.Scanning.of_hunt (h : s.Sound) (he : s.eng = .fr) (hb : s.status.busy = true) (hp : s.frPhase = .hunt)
    (hn : s.bufLen = 0) : s.Scanning where
  sound := h
  eng := he
  busy := hb
  phases :=
    { tailN_le := h.tailN_le
      hunt_empty := fun _ _ => hn
      body_nonempty := by simp [hp]
      tail_room := by simp [hp]
      starts_slash := by simp [hp]
      tail_bang := by simp [hp]
      tail_first := by simp [hp] }

/-- A scan in the body of a candidate that starts at its `/`. -/
theorem State.Scanning.of_body (h : s.Sound) (he : s.eng = .fr) (hb : s.status.busy = true) (hp : s.frPhase = .body)
    (hn : 1 ≤ s.bufLen.toNat) (h0 : s.tbuf.read 0 = chSlash) : s.Scanning where
  sound := h
  eng := he
  busy := hb
  phases :=
    { tailN_le := h.tailN_le
      hunt_empty := by simp [hp]
      body_nonempty := fun _ _ => hn
      tail_room := by simp [hp]
      starts_slash := fun _ _ => h0
      tail_bang := by simp [hp]
      tail_first := by simp [hp] }

theorem State.Sound.hunting (h : s.Sound) (ovf : Bool) :
    State.Sound { s with bufLen := 0, status := { s.status with ovf := ovf }, frPhase := .hunt, tailN := 0 } :=
  { h with
    buffers := { h.buffers with bufLen_le := Nat.zero_le _ }
    tailN_le := Nat.zero_le 6
    ranges := { h.ranges with } }

/-- Discard() and Overflow() go back to the hunt (spec/42_frame_scanner.md R508, R509). -/
theorem State.Sound.discard (h : s.Sound) (he : s.eng = .fr) (hb : s.status.busy = true) : s.discard.ScanOutcome :=
  (State.Scanning.of_hunt (h.hunting s.status.ovf) he hb rfl rfl).failAdd _

theorem State.Scanning.overflow (h : s.Scanning) : s.overflow.ScanOutcome :=
  (State.Scanning.of_hunt (h.sound.hunting true) h.eng h.busy rfl rfl).failAdd _

theorem State.Scanning.startCandidate (h : s.Scanning) : (s.startCandidate chSlash).Scanning :=
  .of_body (h.sound.startCandidate _) h.eng h.busy rfl (Nat.le_refl 1)
    (Memory.read_write_same h.sound.buffers.tbuf_wf 0 chSlash)

theorem State.Scanning.frHunt (h : s.Scanning) (b : Byte) : (s.frHunt b).ScanOutcome := by
  rcases s.frHunt_cases b with ⟨rfl, e⟩ | ⟨_, e⟩ <;> rw [e]
  · exact .inl h.startCandidate
  · exact h.failAdd 1

/-- In BODY and TAIL a stored byte leaves every byte below the length, so the `/` at index 0. -/
theorem State.appendTbuf_read_lt (s : State) (b : Byte) {i : Nat} (hi : i < s.bufLen.toNat) :
    (s.appendTbuf b).tbuf.read i = s.tbuf.read i :=
  Memory.read_write_ne (Nat.ne_of_lt hi) _ _

theorem State.Scanning.frBody (h : s.Scanning) (hp : s.frPhase = .body) (b : Byte) : (s.frBody b).ScanOutcome := by
  have hn := h.phases.body_nonempty h.eng hp
  have h0 := h.phases.starts_slash h.eng (by simp [hp])
  rcases s.frBody_cases b with ⟨rfl, e⟩ | ⟨_, _, e⟩ | ⟨rfl, hf, e⟩ | ⟨_, _, hf, e⟩ <;> rw [e]
  · exact h.startCandidate.failAdd _
  · exact h.overflow
  · have hl := h.sound.buffers.appendTbuf_length hf chBang
    have hs := h.sound.appendTbuf hf chBang
    left
    exact
      { sound := { hs with buffers := { hs.buffers with }, tailN_le := Nat.zero_le 6, ranges := { hs.ranges with } }
        eng := h.eng
        busy := h.busy
        phases :=
          { tailN_le := Nat.zero_le 6
            hunt_empty := fun _ h => by cases h
            body_nonempty := fun _ h => by cases h
            tail_room := fun _ _ => ⟨Nat.zero_le 5, by simp only; omega⟩
            starts_slash := fun _ _ => (s.appendTbuf_read_lt chBang hn).trans h0
            tail_bang := fun _ _ => by
              have hi : (s.appendTbuf chBang).bufLen.toNat - 0 - 1 = s.bufLen.toNat := by omega
              simp only [hi, State.appendTbuf_tbuf]
              exact Memory.read_write_same h.sound.buffers.tbuf_wf _ _
            tail_first := fun _ _ h => by simp at h } }
  · have hl := h.sound.buffers.appendTbuf_length hf b
    exact .inl (.of_body (h.sound.appendTbuf hf b) h.eng h.busy hp (by omega) ((s.appendTbuf_read_lt b hn).trans h0))

/-- A tail chunk with one more byte, before its check (spec/42_frame_scanner.md R506). -/
def State.storeTail (b : Byte) (s : State) : State := { s.appendTbuf b with tailN := s.tailN + 1 }

theorem State.frTail_cases (b : Byte) (s : State) :
    (s.tbufFull = true ∧ s.frTail b = s.overflow) ∨ (s.tbufFull = false ∧ s.frTail b = (s.storeTail b).checkTail) := by
  cases hf : s.tbufFull
  · exact .inr ⟨rfl, by simp [State.frTail, hf, State.storeTail]⟩
  · exact .inl ⟨rfl, by simp [State.frTail, hf]⟩

theorem State.Scanning.storeTail_sound (h : s.Scanning) (hp : s.frPhase = .tail) (hf : s.tbufFull = false) (b : Byte) :
    (s.storeTail b).Sound :=
  have hs := h.sound.appendTbuf hf b
  { hs with
    buffers := { hs.buffers with }
    tailN_le := Nat.succ_le_succ (h.phases.tail_room h.eng hp).1
    ranges := { hs.ranges with } }

/-- A chunk that is not complete waits for its next byte. -/
theorem State.Scanning.storeTail (h : s.Scanning) (hp : s.frPhase = .tail) (hf : s.tbufFull = false) (b : Byte)
    (h6 : (s.storeTail b).tailN ≠ 6) (h2 : ¬((s.storeTail b).tailN = 2 ∧ (s.storeTail b).tailByte 0 = chCR)) :
    (s.storeTail b).Scanning := by
  have hroom := h.phases.tail_room h.eng hp
  have hlen : (s.storeTail b).bufLen.toNat = s.bufLen.toNat + 1 := h.sound.buffers.appendTbuf_length hf b
  have hn : (s.storeTail b).tailN = s.tailN + 1 := rfl
  refine ⟨h.storeTail_sound hp hf b, h.eng, h.busy, ?_⟩
  exact
    { tailN_le := by omega
      hunt_empty := fun _ hh => by rw [show (s.storeTail b).frPhase = s.frPhase from rfl, hp] at hh; cases hh
      body_nonempty := fun _ hh => by rw [show (s.storeTail b).frPhase = s.frPhase from rfl, hp] at hh; cases hh
      tail_room := fun _ _ => by omega
      starts_slash := fun _ _ =>
        (s.appendTbuf_read_lt b (by omega)).trans (h.phases.starts_slash h.eng (by simp [hp]))
      tail_bang := fun _ _ => by
        have hi : (s.storeTail b).bufLen.toNat - (s.storeTail b).tailN - 1 = s.bufLen.toNat - s.tailN - 1 := by omega
        rw [hi]
        exact (s.appendTbuf_read_lt b (by omega)).trans (h.phases.tail_bang h.eng hp)
      tail_first := fun _ _ hge => by
        by_cases h1 : s.tailN = 1
        · exact fun hc => h2 ⟨by omega, hc⟩
        · have hi : (s.storeTail b).bufLen.toNat - (s.storeTail b).tailN + 0 = s.bufLen.toNat - s.tailN + 0 := by omega
          have hr : (s.storeTail b).tailByte 0 = s.tailByte 0 := by
            rw [State.tailByte, State.tailByte, hi]
            exact s.appendTbuf_read_lt b (by omega)
          rw [hr]
          exact h.phases.tail_first h.eng hp (by omega) }

theorem State.Scanning.frTail (h : s.Scanning) (hp : s.frPhase = .tail) (b : Byte) : (s.frTail b).ScanOutcome := by
  rcases s.frTail_cases b with ⟨_, e⟩ | ⟨hf, e⟩ <;> rw [e]
  · exact h.overflow
  · have hs := h.storeTail_sound hp hf b
    have he : (s.storeTail b).eng ≠ .idle := fun e => by cases h.eng.symm.trans e
    rcases (s.storeTail b).checkTail_cases with ⟨_, _, _, e⟩ | ⟨_, _, _, e⟩ | ⟨_, _, e⟩ | ⟨_, _, e⟩ | ⟨h6, h2, e⟩ <;>
      rw [e]
    · exact .inr (hs.raiseResult_resting he _)
    · exact hs.discard h.eng h.busy
    · exact .inr (hs.raiseResult_resting he _)
    · exact hs.discard h.eng h.busy
    · exact .inl (h.storeTail hp hf b h6 h2)

theorem State.Scanning.frByte (h : s.Scanning) (b : Byte) : (s.frByte b).ScanOutcome := by
  cases hp : s.frPhase with
  | hunt => rw [State.frByte_hunt hp]; exact h.frHunt b
  | body => rw [State.frByte_body hp]; exact h.frBody hp b
  | tail => rw [State.frByte_tail hp]; exact h.frTail hp b

/-- A response to a running scan keeps the invariant. -/
theorem State.Scanning.frRespond_inv (h : s.Scanning) {a : Response} (ht : s.frRespond a = some t) : t.Inv := by
  have he : s.eng ≠ .idle := by simp [h.eng]
  rcases frRespond_some ht with ⟨_, rfl⟩ | ⟨_, rfl⟩ | ⟨b, _, rfl⟩
  · exact (h.sound.raiseResult_resting he _).inv
  · exact (h.sound.raiseResult_resting he _).inv
  · exact (h.frByte b).frContinue_inv

end Sys2Proof.Machine
end

section

/-! A running D0 cycle keeps the invariant (spec/43_d0_engine.md R601 to R671). -/

namespace Sys2Proof.Machine

variable {s t : State}

/-- A cycle that runs and has consumed a response: its next request is not issued yet. -/
structure State.Cycling (s : State) : Prop where
  sound : s.Sound
  eng : s.eng = .d0
  busy : s.status.busy = true

theorem State.Inv.cycling (h : s.Inv) (he : s.eng = .d0) : s.answered.Cycling where
  sound := h.sound.congr rfl
  eng := he
  busy := h.busy_of_running (by simp [he])

/-- Writing a field that `State.Inv` does not read, or one that only the stage reads, keeps a cycle going. -/
theorem State.Cycling.congr (h : s.Cycling) (e : t.soundPart = s.soundPart) (he : t.eng = s.eng)
    (hb : t.status.busy = s.status.busy) : t.Cycling :=
  ⟨h.sound.congr e, he.trans h.eng, hb.trans h.busy⟩

/-- Entering a phase with the request its row names completes the step, when the registers fit the phase's stage. -/
theorem State.Cycling.enterPhase_inv {ph : D0Phase} {r : Request} (h : s.Cycling)
    (hr : ({ s with d0Phase := ph } : State).phaseRequest = some r) (hf : s.FitsStage ph.stage) :
    (s.enterPhase ph r).Inv where
  port :=
    { busy_iff := by simp [h.busy, h.eng]
      pending_iff := by simp [h.eng]
      pending_eq := by
        rw [State.expectedRequest, State.enterPhase_eng, h.eng]
        exact hr.symm
      pending_last := by simp }
  buffers := { h.sound.buffers with }
  scan := .of_not_scanning h.sound.tailN_le (by simp [h.eng])
  cycle := State.CycleRanges.cycleInv { h.sound.ranges with } (fun _ => hf)
  tailClass := h.sound.tailClass

theorem State.Cycling.raiseResult_inv (h : s.Cycling) (c : ResultCode) : (s.raiseResult c).Inv :=
  (h.sound.raiseResult_resting (by simp [h.eng]) c).inv

theorem State.Cycling.setSeqK (h : s.Cycling) {k : Nat} (hk : k ≤ max s.cfg.wakeCount 5) :
    State.Cycling { s with seqK := k } :=
  ⟨{ h.sound with buffers := { h.sound.buffers with }, ranges := { h.sound.ranges with seqK_le := hk } }, h.eng, h.busy⟩

/-- Sending a sequence of at most six bytes keeps the invariant when what follows it does. -/
theorem State.Cycling.sendFrom_inv {ph : D0Phase} {seq : List Byte} {after : State → State} (h : s.Cycling) (k : Nat)
    (hlen : seq.length ≤ 6)
    (hr : ({ s with seqK := k, d0Phase := ph } : State).phaseRequest = seq[k]?.map .tx)
    (hf : s.FitsStage ph.stage) (ha : (after s).Inv) : (s.sendFrom ph seq after k).Inv := by
  by_cases hk : k < seq.length
  · rw [State.sendFrom_of_lt hk]
    refine (h.setSeqK (le_max_of_le_right (by omega))).enterPhase_inv ?_ hf
    simpa [hk] using hr
  · rw [State.sendFrom_of_le (by omega)]
    exact ha

/-! ### Up to ModeDetect -/

theorem State.Cycling.enterIdent_inv (h : s.Cycling) (hf : s.FitsStage .detecting) : s.enterIdent.Inv :=
  h.enterPhase_inv rfl hf

theorem State.Cycling.enterFlush_inv (h : s.Cycling) (hf : s.FitsStage .detecting) : s.enterFlush.Inv :=
  h.enterPhase_inv rfl hf

theorem State.Cycling.sendSignon_inv (h : s.Cycling) (hf : s.FitsStage .detecting) (k : Nat) : (s.sendSignon k).Inv :=
  h.sendFrom_inv k (by decide) rfl hf (h.enterIdent_inv hf)

theorem State.Cycling.sendWake_inv (h : s.Cycling) (hf : s.FitsStage .detecting) (k : Nat) : (s.sendWake k).Inv := by
  unfold State.sendWake
  split
  · rename_i hk
    exact (h.setSeqK (le_max_of_le_left hk)).enterPhase_inv rfl hf
  · exact h.enterPhase_inv rfl hf

theorem State.Cycling.afterSetbaud0_inv (h : s.Cycling) (hf : s.FitsStage .detecting) : s.afterSetbaud0.Inv := by
  unfold State.afterSetbaud0
  split
  · exact h.sendWake_inv hf 1
  · exact h.enterFlush_inv hf

/-- The start of D0_CYCLE. -/
theorem State.Resting.startCycle_inv (h : s.Resting) : s.startCycle.Inv := by
  refine State.Cycling.enterPhase_inv (ph := .setbaud0) ⟨?_, rfl, rfl⟩ rfl ⟨rfl, rfl, h.sound.buffers.bangBudget_pos⟩
  exact
    { buffers := { h.sound.buffers with bufLen_le := Nat.zero_le _, idLen_le := Nat.zero_le _ }
      tailN_le := h.sound.tailN_le
      ranges :=
        { h.sound.ranges with
          bangCnt_le := Nat.zero_le _
          baud_ne := fun hm => absurd rfl hm
          baud_none := fun _ => rfl
          mode_ne_d := fun hm => by cases hm }
      tailClass := fun _ => rfl }

/-! ### ModeDetect and the negotiation -/

theorem rateDigit_le {z : Byte} (h : isRateDigit z = true) : ((z - 0x30).setWidth 3 : BitVec 3) ≤ 6 := by
  simp only [isRateDigit, Bool.and_eq_true, decide_eq_true_eq] at h
  bv_omega

theorem rateLetter_le {z : Byte} (h : isRateLetter z = true) : ((z - 0x41).setWidth 3 : BitVec 3) ≤ 6 := by
  simp only [isRateLetter, Bool.and_eq_true, decide_eq_true_eq] at h
  bv_omega

/-- What a successful ModeDetect gives, and that it looked at five characters at least (spec/43_d0_engine.md R620). -/
theorem modeDetect_detected {c : List Byte} {m : Mode} {k : BitVec 3} (h : modeDetect c = .detected m k) :
    5 ≤ c.length ∧ m ≠ .none ∧ m ≠ .d ∧ k ≤ 6 := by
  unfold modeDetect at h
  dsimp only at h
  split at h
  · cases h
  · rename_i hlen
    have h5 : 5 ≤ c.length := by omega
    split at h
    · rename_i hz
      have hk := rateDigit_le hz
      split at h
      · split at h
        · cases h
        · cases h; exact ⟨h5, by decide, by decide, hk⟩
      · cases h; exact ⟨h5, by decide, by decide, hk⟩
    · split at h
      · rename_i hz
        cases h; exact ⟨h5, by decide, by decide, rateLetter_le hz⟩
      · split at h
        · cases h; exact ⟨h5, by decide, by decide, by decide⟩
        · cases h

theorem State.Cycling.enterTel_inv (h : s.Cycling) (hf : s.FitsStage .reading) : s.enterTel.Inv :=
  h.enterPhase_inv rfl hf

theorem State.Cycling.sendAck_inv (h : s.Cycling) (hf : s.FitsStage .reading) (k : Nat) : (s.sendAck k).Inv :=
  h.sendFrom_inv k (by simp [ackSeq]) rfl hf (h.enterPhase_inv rfl hf)

/-- The registers after a successful ModeDetect (spec/43_d0_engine.md R641). -/
def State.recordMode (m : Mode) (k : BitVec 3) (s : State) : State :=
  { s with d0res := { s.d0res with mode := m, baud := k }, rateCode := k, zchar := s.ibuf.read 4 }

/-- How the cycle goes on in a detected mode (spec/43_d0_engine.md R601 step 5). -/
def State.afterDetect (m : Mode) (s : State) : State :=
  if m = .b then s.enterBaudB else if m.isNegotiated then s.sendAck 0 else s.enterTel

theorem State.negotiate_eq (m : Mode) (k : BitVec 3) (s : State) : s.negotiate m k = (s.recordMode m k).afterDetect m :=
  rfl

theorem State.Cycling.recordMode (h : s.Cycling) {m : Mode} {k : BitVec 3} (hm : m ≠ .none) (hd : m ≠ .d) (hk : k ≤ 6) :
    (s.recordMode m k).Cycling :=
  ⟨{ h.sound with
      buffers := { h.sound.buffers with }
      ranges :=
        { h.sound.ranges with
          rateCode_le := hk, baud_ne := fun _ => hk, baud_none := fun e => absurd e hm, mode_ne_d := hd } },
    h.eng, h.busy⟩

theorem State.Cycling.afterDetect_inv (h : s.Cycling) (hf : s.FitsStage .reading) (m : Mode) :
    (s.afterDetect m).Inv := by
  unfold State.afterDetect
  split
  · exact h.enterPhase_inv rfl hf
  split
  · exact h.sendAck_inv hf 0
  · exact h.enterTel_inv hf

theorem State.Cycling.detectMode_inv (h : s.Cycling) (hf : s.FitsStage .detecting) : s.detectMode.Inv := by
  unfold State.detectMode
  split
  · rename_i m k hd
    obtain ⟨_, hm, hmd, hk⟩ := modeDetect_detected hd
    obtain ⟨_, hv, hb⟩ := hf
    rw [State.negotiate_eq]
    exact (h.recordMode hm hmd hk).afterDetect_inv ⟨hm, hv, hb⟩ m
  · exact h.raiseResult_inv _

theorem State.Cycling.identByte_inv (h : s.Cycling) (hf : s.FitsStage .detecting) (b : Byte) : (s.identByte b).Inv := by
  unfold State.identByte
  split
  · exact h.raiseResult_inv _
  split
  · exact h.raiseResult_inv _
  rename_i hfull
  have ha : (s.appendIbuf b).Cycling := ⟨h.sound.appendIbuf (by simpa using hfull) b, h.eng, h.busy⟩
  split
  · unfold State.endOfLine
    split
    · exact ha.detectMode_inv hf
    · exact ha.raiseResult_inv _
  · exact ha.enterIdent_inv hf

/-! ### The end of the telegram read -/

theorem State.Cycling.sendSignoff_inv (h : s.Cycling) (hf : s.FitsStage .closing) (k : Nat) : (s.sendSignoff k).Inv :=
  h.sendFrom_inv k (by decide) rfl hf (h.enterPhase_inv rfl hf)

theorem State.Cycling.signOff_inv (h : s.Cycling) (ho : s.d0res.obtained = true) : s.signOff.Inv := by
  unfold State.signOff
  split
  · rename_i hm
    exact h.sendSignoff_inv ⟨hm, ho⟩ 0
  · exact h.raiseResult_inv _

theorem State.Cycling.endOfTelegram_inv (h : s.Cycling) (hm : s.d0res.mode ≠ .none)
    (hv : s.d0res.verdict = .notApplicable) (ho : s.d0res.obtained = true) : s.endOfTelegram.Inv := by
  have hc : State.Cycling { s with bcc := { s.bcc with lrcCalc := lrcFinish s.lrc } } := h.congr rfl rfl rfl
  unfold State.endOfTelegram
  dsimp only
  split
  · rename_i hse
    obtain ⟨hs, he⟩ := (Bool.and_eq_true _ _).mp hse
    exact hc.enterPhase_inv rfl ⟨hm, hv, hs, he, ho⟩
  · exact hc.signOff_inv ho

theorem State.Cycling.obtain_inv (h : s.Cycling) (hm : s.d0res.mode ≠ .none) (hv : s.d0res.verdict = .notApplicable) :
    s.obtain.Inv :=
  (h.congr (t := { s with d0res := { s.d0res with obtained := true } }) rfl rfl rfl).endOfTelegram_inv hm hv rfl

/-! ### The telegram read -/

theorem State.Cycling.setBangCnt (h : s.Cycling) {n : Nat} (hn : n ≤ s.cfg.bangBudget) :
    State.Cycling { s with bangCnt := n } :=
  ⟨{ h.sound with buffers := { h.sound.buffers with }, ranges := { h.sound.ranges with bangCnt_le := hn } },
    h.eng, h.busy⟩

theorem State.Cycling.telBang_inv (h : s.Cycling) (hf : s.FitsStage .reading) (b : Byte) : (s.telBang b).Inv := by
  obtain ⟨hm, hv, hb⟩ := hf
  unfold State.telBang
  split
  · have hc := h.setBangCnt (n := s.bangCnt + 1) hb
    dsimp only
    split
    · exact hc.obtain_inv hm hv
    · rename_i hne
      exact hc.enterTel_inv ⟨hm, hv, lt_of_le_of_ne hb hne⟩
  split
  · have hc := (h.setBangCnt (n := 0) (Nat.zero_le _)).congr
      (t := { s with d0res := { s.d0res with bangSeen := true }, bangCnt := 0 }) rfl rfl rfl
    exact hc.enterTel_inv ⟨hm, hv, h.sound.buffers.bangBudget_pos⟩
  · exact h.enterTel_inv ⟨hm, hv, hb⟩

theorem State.Cycling.telByte_inv (h : s.Cycling) (hf : s.FitsStage .reading) (b : Byte) : (s.telByte b).Inv := by
  unfold State.telByte
  split
  · obtain ⟨hm, hv, _⟩ := hf
    exact State.Cycling.obtain_inv (h.congr rfl rfl rfl) hm hv
  split
  · exact (h.congr (t := s.telStx) rfl rfl rfl).telBang_inv hf b
  split
  · exact h.raiseResult_inv _
  · rename_i hfull
    have ha : (s.appendTbuf b).Cycling := ⟨h.sound.appendTbuf (by simpa using hfull) b, h.eng, h.busy⟩
    exact (ha.congr (t := s.telStore b) rfl rfl rfl).telBang_inv hf b

theorem State.Cycling.telTimeout_inv (h : s.Cycling) (hf : s.FitsStage .reading) : s.telTimeout.Inv := by
  obtain ⟨hm, hv, _⟩ := hf
  unfold State.telTimeout
  split
  · exact h.obtain_inv hm hv
  · exact h.raiseResult_inv _

theorem State.Cycling.bccByte_inv (h : s.Cycling) (hf : s.FitsStage .checking) (c : Byte) : (s.bccByte c).Inv := by
  obtain ⟨_, _, _, _, ho⟩ := hf
  exact State.Cycling.signOff_inv (h.congr rfl rfl rfl) ho

theorem State.Cycling.bccTimeout_inv (h : s.Cycling) (hf : s.FitsStage .checking) : s.bccTimeout.Inv := by
  obtain ⟨_, _, _, _, ho⟩ := hf
  exact State.Cycling.signOff_inv (h.congr rfl rfl rfl) ho

/-! ### The phase table -/

/-- A response to a running cycle keeps the invariant. -/
theorem State.Cycling.d0Respond_inv (h : s.Cycling) (hf : s.FitsStage s.d0Phase.stage) {a : Response}
    (ht : s.d0Respond a = some t) : t.Inv := by
  unfold State.d0Respond at ht
  split at ht
  · cases ht
    exact h.raiseResult_inv _
  rcases State.d0Advance_cases ht with ⟨hp, _, rfl⟩ | ⟨hp, _, rfl⟩ | ⟨hp, _, rfl⟩ | ⟨hp, _, rfl⟩ | ⟨hp, _, rfl⟩ |
    ⟨hp, b, _, rfl⟩ | ⟨hp, _, rfl⟩ | ⟨hp, _, rfl⟩ | ⟨hp, _, rfl⟩ | ⟨hp, _, rfl⟩ | ⟨hp, _, rfl⟩ | ⟨hp, b, _, rfl⟩ |
    ⟨hp, _, rfl⟩ | ⟨hp, c, _, rfl⟩ | ⟨hp, _, rfl⟩ | ⟨hp, _, rfl⟩ | ⟨hp, _, rfl⟩ <;> rw [hp] at hf
  · exact h.afterSetbaud0_inv hf
  · exact h.sendWake_inv hf _
  · exact h.enterFlush_inv hf
  · exact h.sendSignon_inv hf _
  · exact h.sendSignon_inv hf _
  · exact h.identByte_inv hf b
  · exact h.raiseResult_inv _
  · exact h.enterTel_inv hf
  · exact h.sendAck_inv hf _
  · exact h.enterPhase_inv rfl hf
  · exact h.enterTel_inv hf
  · exact h.telByte_inv hf b
  · exact h.telTimeout_inv hf
  · exact h.bccByte_inv hf c
  · exact h.bccTimeout_inv hf
  · exact h.sendSignoff_inv hf _
  · exact h.raiseResult_inv _

end Sys2Proof.Machine
end

section

/-! Every step keeps the block's invariant (O58). -/

namespace Sys2Proof.Machine

variable {s t : State}

/-- A command keeps the invariant when its rule does in the idle block that has accepted it. -/
theorem State.Inv.acceptCommand (h : s.Inv) {rule : State → State} (ht : acceptCommand rule s = .next t)
    (hrule : (s.setRej false).Resting → (rule (s.setRej false)).Inv) : t.Inv := by
  rcases acceptCommand_next ht with ⟨_, rfl⟩ | ⟨hb, rfl⟩
  · exact h.congr rfl
  · exact hrule ((h.resting hb).congr rfl)

theorem State.Resting.classify (h : s.Resting) :
    State.Resting { s with cls := (classifyTail s.telegram).1, chk := (classifyTail s.telegram).2 } :=
  ⟨⟨{ h.sound.buffers with }, h.sound.tailN_le, { h.sound.ranges with }, classifyTail_chk s.telegram⟩, h.eng, h.busy,
    h.pending⟩

theorem State.Resting.bufClear (h : s.Resting) : (State.clearClass { s with bufLen := 0 }).Resting :=
  State.Resting.clearClass ⟨h.sound.withBufLen 0 (Nat.zero_le _), h.eng, h.busy, h.pending⟩

theorem State.Inv.exec (h : s.Inv) {i : Instr} (ht : exec i s = .next t) : t.Inv := by
  cases i with
  | nop | crcaInit | crcaByte d | crccInit | crccByte d | lrcInit | lrcByte d =>
    exact h.acceptCommand ht fun hs => hs.inv.congr rfl
  | bufClear => exact h.acceptCommand ht fun hs => hs.bufClear.inv.congr rfl
  | bufPush d => exact h.acceptCommand ht fun hs => (hs.pushByte d).inv
  | classify => exact h.acceptCommand ht fun hs => hs.classify.inv.congr rfl
  | frScan => exact h.acceptCommand ht fun hs => hs.startScan_inv
  | d0Cycle => exact h.acceptCommand ht fun hs => hs.startCycle_inv

theorem State.Inv.hostWrite (h : s.Inv) {addr : RegAddr} {v : Word} (ht : hostWrite addr v s = .next t) : t.Inv := by
  rcases hostWrite_cases ht with ⟨_, ht⟩ | ⟨_, rfl⟩ | ⟨_, rfl⟩ | ⟨_, _, _, rfl⟩
  · rcases writeCommand_cases ht with ⟨i, _, ht⟩ | ⟨_, ht⟩
    · exact h.exec ht
    · refine h.acceptCommand ht fun hs => ?_
      rw [State.raiseResult_of_idle _ hs.eng]
      exact hs.inv.congr rfl
  · unfold State.writeConfig
    split <;> exact h.congr rfl
  · unfold State.writeBudget
    split <;> exact h.congr rfl
  · exact h

theorem State.Inv.respond (h : s.Inv) {a : Response} (ht : s.respond a = .next t) : t.Inv := by
  obtain ⟨r, _, _, hc⟩ := respond_next ht
  cases he : s.eng with
  | idle => simp [State.engineConsume, he] at hc
  | fr =>
    simp only [State.engineConsume, State.answered_eng, he] at hc
    exact (h.scanning he).frRespond_inv hc
  | d0 =>
    simp only [State.engineConsume, State.answered_eng, he] at hc
    exact (h.cycling he).d0Respond_inv (h.cycle.fitsStage he) hc

theorem State.Inv.resetBlock (h : s.Inv) : s.resetBlock.Inv := by
  refine State.Resting.inv ⟨?_, rfl, rfl, rfl⟩
  exact
    { buffers :=
        { params := h.buffers.params
          bufLen_le := Nat.zero_le _
          idLen_le := Nat.zero_le _
          tbuf_wf := rfl
          ibuf_wf := rfl
          tbuf_inside := fun _ hc => by cases hc
          ibuf_inside := fun _ hc => by cases hc }
      tailN_le := Nat.zero_le 6
      ranges :=
        { seqK_le := Nat.zero_le _
          bangCnt_le := Nat.zero_le _
          rateCode_le := Nat.zero_le 6
          baud_ne := fun hm => absurd rfl hm
          baud_none := fun _ => rfl
          mode_ne_d := fun hm => by cases hm }
      tailClass := fun _ => rfl }

theorem State.Inv.takeMove (h : s.Inv) {m : Move} (ht : takeMove m s = .next t) : t.Inv := by
  cases m with
  | hostWrite addr v => exact h.hostWrite ht
  | hostRead addr => cases ht; exact h.congr rfl
  | hostBufRead sp i => cases ht; exact h.congr rfl
  | respond a => exact h.respond ht
  | reset => cases ht; exact h.resetBlock

/-- Settles O58: each move keeps the invariant, and a step takes one move of the inbox or none. -/
theorem everyStepKeepsTheInvariant : Obligations.EveryStepKeepsTheInvariant := by
  intro s t h ht
  rcases step_cases ht with ⟨_, rfl⟩ | ⟨m, rest, _, ht⟩
  · exact h
  · exact (h.congr (t := { s with inbox := rest }) rfl).takeMove ht

end Sys2Proof.Machine
end

section

/-! The state layer's small statements: the inbox (O5), the register port (O19, O20) and responses without a move
(O23). -/

namespace Sys2Proof.Machine

variable {s t : State}

/-! ### The inbox -/

/-- Settles O5: `step` is the inbox's own match on its first move. -/
theorem stepTakesTheNextMove : Obligations.StepTakesTheNextMove :=
  ⟨fun s rest m h => by rw [step, stepInbox, h], fun s h => by rw [step, stepInbox, h]⟩

/-! ### Addresses without a register -/

theorem hostWrite_of_no_writable {a : RegAddr} (v : Word) (s : State) (h0 : a ≠ 0x00) (h2 : a ≠ 0x02) (h3 : a ≠ 0x03) :
    hostWrite a v s = .next s := by
  unfold hostWrite
  split
  · rename_i h; exact absurd (BitVec.eq_of_toNat_eq h) h0
  · rename_i h; exact absurd (BitVec.eq_of_toNat_eq h) h2
  · rename_i h; exact absurd (BitVec.eq_of_toNat_eq h) h3
  · rfl

theorem State.readReg_of_no_register {a : RegAddr} (s : State) (h : a = 0x00 ∨ 0x0F ≤ a) : s.readReg a = 0x0000 := by
  have ha : a.toNat = 0 ∨ 15 ≤ a.toNat := h.imp (congrArg BitVec.toNat) BitVec.le_def.1
  unfold State.readReg
  split
  case h_15 => rfl
  all_goals omega

/-- Settles O19: a write falls through to the last row of `hostWrite`, a read to the last row of `State.readReg`. -/
theorem otherAddressesIgnoreWrites : Obligations.OtherAddressesIgnoreWrites :=
  ⟨fun s _ v h0 h2 h3 => hostWrite_of_no_writable v s h0 h2 h3, fun s _ h => s.readReg_of_no_register h⟩

/-! ### STATUS bit by bit -/

theorem getLsbD_flagBit (b : Bool) {pos : Nat} (hp : pos < 16) (k : Nat) :
    (flagBit b pos).getLsbD k = (decide (k = pos) && b) := by
  by_cases hk : k = pos
  · subst hk
    simp [flagBit, hp]
  · simp [flagBit, hk, BitVec.getLsbD_ofBool]
    omega

/-- RES stands in the bits [7:4] of STATUS (spec/10_state.md R104). -/
theorem ResultCode.getLsbD_placed (c : ResultCode) (k : Nat) :
    (c.code.setWidth 16 <<< 4 : Word).getLsbD k = (decide (4 ≤ k ∧ k ≤ 7) && c.code.getLsbD (k - 4)) := by
  by_cases h4 : k < 4
  · have h : ¬(4 ≤ k ∧ k ≤ 7) := by omega
    simp [h, h4]
  by_cases h7 : k ≤ 7
  · have h16 : k < 16 := by omega
    have h : 4 ≤ k ∧ k ≤ 7 := by omega
    simp [h, h4, h16]
  · simp [h7, BitVec.getLsbD_of_ge c.code (k - 4) (by omega)]

theorem Status.getLsbD_word (st : Status) (k : Nat) : st.word.getLsbD k =
    ((k = 0 && st.busy) || (k = 1 && st.rej) || (k = 2 && st.ovf) ||
      (decide (4 ≤ k ∧ k ≤ 7) && st.res.code.getLsbD (k - 4))) := by
  rw [Status.word, BitVec.getLsbD_or, BitVec.getLsbD_or, BitVec.getLsbD_or, ResultCode.getLsbD_placed,
    getLsbD_flagBit _ (by decide), getLsbD_flagBit _ (by decide), getLsbD_flagBit _ (by decide)]
  ac_rfl

/-! ### Registers made of fields as sums -/

/-- A field of n bits placed at a position of a 16-bit register. -/
theorem placed_toNat {n : Nat} (x : BitVec n) {pos : Nat} (h : n + pos ≤ 16) :
    (x.setWidth 16 <<< pos : Word).toNat = 2 ^ pos * x.toNat := by
  have hlt : 2 ^ pos * x.toNat < 2 ^ 16 := calc
    2 ^ pos * x.toNat < 2 ^ pos * 2 ^ n := Nat.mul_lt_mul_of_pos_left x.isLt (Nat.two_pow_pos pos)
    _ = 2 ^ (n + pos) := by rw [Nat.pow_add, Nat.mul_comm]
    _ ≤ 2 ^ 16 := Nat.pow_le_pow_right (by decide) h
  have hx : x.toNat < 2 ^ 16 := lt_of_le_of_lt (Nat.le_mul_of_pos_left _ (Nat.two_pow_pos pos)) hlt
  rw [BitVec.toNat_shiftLeft, BitVec.toNat_setWidth, Nat.mod_eq_of_lt hx, Nat.shiftLeft_eq, Nat.mul_comm,
    Nat.mod_eq_of_lt hlt]

theorem flagBit_toNat (b : Bool) {pos : Nat} (h : 1 + pos ≤ 16) : (flagBit b pos).toNat = 2 ^ pos * b.toNat := by
  rw [flagBit, placed_toNat _ h, BitVec.toNat_ofBool]

/-- A field b of n bits at position p, ORed below fields that stand above it. -/
theorem or_toNat_of_above {x y : Word} (p n : Nat) {a b : Nat} (hx : x.toNat = 2 ^ (p + n) * a)
    (hy : y.toNat = 2 ^ p * b) (hb : b < 2 ^ n) : (x ||| y).toNat = 2 ^ p * (2 ^ n * a + b) := by
  have hlt : 2 ^ p * b < 2 ^ (p + n) := by
    rw [Nat.pow_add]
    exact Nat.mul_lt_mul_of_pos_left hb (Nat.two_pow_pos p)
  rw [BitVec.toNat_or, hx, hy, ← Nat.two_pow_add_eq_or_of_lt hlt, Nat.pow_add, Nat.mul_add, Nat.mul_assoc]

/-- D0RES as the sum of its fields (spec/10_state.md R115), assembled from the highest bit down. -/
theorem HandshakeResult.word_toNat (r : HandshakeResult) :
    r.word.toNat = r.mode.code.toNat + 16 * r.baud.toNat + 256 * r.verdict.code.toNat + 1024 * r.stxSeen.toNat +
      2048 * r.etxSeen.toNat + 4096 * r.bangSeen.toNat + 8192 * r.obtained.toNat + 16384 * r.bccValid.toNat := by
  have hb := r.baud.isLt
  have hm := r.mode.code.isLt
  have hmode : (r.mode.code.setWidth 16 : Word).toNat = 2 ^ 0 * r.mode.code.toNat := by
    simpa using placed_toNat r.mode.code (pos := 0) (by decide)
  have h13 := or_toNat_of_above 13 1 (flagBit_toNat r.bccValid (by decide)) (flagBit_toNat r.obtained (by decide))
    r.obtained.toNat_lt
  have h12 := or_toNat_of_above 12 1 h13 (flagBit_toNat r.bangSeen (by decide)) r.bangSeen.toNat_lt
  have h11 := or_toNat_of_above 11 1 h12 (flagBit_toNat r.etxSeen (by decide)) r.etxSeen.toNat_lt
  have h10 := or_toNat_of_above 10 1 h11 (flagBit_toNat r.stxSeen (by decide)) r.stxSeen.toNat_lt
  have h8 := or_toNat_of_above 8 2 h10 (placed_toNat r.verdict.code (by decide)) r.verdict.code.isLt
  have h4 := or_toNat_of_above 4 4 h8 (placed_toNat r.baud (by decide)) (by omega)
  have h0 := or_toNat_of_above 0 4 h4 hmode (by omega)
  rw [HandshakeResult.word, h0]
  omega

theorem BlockCheck.word_toNat (c : BlockCheck) : c.word.toNat = 256 * c.lrcCalc.toNat + c.rxBcc.toNat := by
  rw [BlockCheck.word, BitVec.toNat_append, ← Nat.shiftLeft_add_eq_or_of_lt c.rxBcc.isLt, Nat.shiftLeft_eq,
    Nat.mul_comm]

/-- Settles O20: each address delivers its row of `State.readReg`; STATUS, D0RES and BCC are read by their fields. -/
theorem registerReadsFollowTheMap : Obligations.RegisterReadsFollowTheMap := by
  intro s
  refine ⟨fun _ => rfl, fun k => s.status.getLsbD_word k, ?_, rfl, rfl, rfl, rfl, rfl, rfl, rfl, rfl, rfl, rfl,
    s.d0res.word_toNat, s.bcc.word_toNat⟩
  show configWord s.wakeEn = _
  cases s.wakeEn <;> rfl

/-! ### Responses without a move -/

theorem respond_refused_of_not_admits {a : Response} {r : Request} (hp : s.pending = some r) (ha : admits r a = false) :
    takeMove (.respond a) s = .refused .responseHasNoMove := by
  simp [takeMove, State.respond, hp, ha]

/-- Only RX is answered by a byte or a TIMEOUT, and only WAIT by DONE (spec/10_state.md R140). -/
theorem admits_byte_iff {r : Request} {b : Byte} : admits r (.byte b) = true ↔ r = .rx := by
  cases r <;> simp [admits]

theorem admits_timeout_iff {r : Request} : admits r .timeout = true ↔ r = .rx := by
  cases r <;> simp [admits]

theorem admits_done_iff {r : Request} : admits r .done = true ↔ ∃ ms, r = .wait ms := by
  cases r <;> simp [admits]

/-- Settles O23: nothing is pending, or the pair is in no row of `admits`. -/
theorem responsesWithoutAMoveAreRefused : Obligations.ResponsesWithoutAMoveAreRefused := by
  refine ⟨fun s a h => by simp [takeMove, State.respond, h], fun s a r hp h => ?_⟩
  refine respond_refused_of_not_admits hp ?_
  rcases h with ⟨rfl, ms, rfl⟩ | ⟨_, rfl, rfl | rfl⟩ | ⟨hr, ⟨b, rfl⟩ | rfl⟩ | ⟨⟨ms, rfl⟩, rfl⟩ | ⟨hw, rfl⟩
  · rfl
  · rfl
  · rfl
  · exact Bool.eq_false_iff.2 fun e => hr (admits_byte_iff.1 e)
  · exact Bool.eq_false_iff.2 fun e => hr (admits_timeout_iff.1 e)
  · rfl
  · refine Bool.eq_false_iff.2 fun e => ?_
    obtain ⟨ms, e⟩ := admits_done_iff.1 e
    exact hw ms e

end Sys2Proof.Machine
end

section

/-! Operations that do not look at a buffer: they commute with replacing the buffers' bytes, so they never tell apart
two blocks that differ only in undefined bytes (spec/10_state.md R124, spec/20_memory.md R202). -/

namespace Sys2Proof.Machine

variable {s t : State}

/-- The block with other bytes in its buffers. -/
def State.withBuffers (s : State) (m n : Memory) : State := { s with tbuf := m, ibuf := n }

/-- The operation reads and writes no buffer byte, and defines none: no length rises. -/
structure BufferBlind (f : State → State) : Prop where
  comm : ∀ (s : State) (m n : Memory), f (s.withBuffers m n) = (f s).withBuffers m n
  bufLen_le : ∀ s : State, (f s).bufLen.toNat ≤ s.bufLen.toNat
  idLen_le : ∀ s : State, (f s).idLen.toNat ≤ s.idLen.toNat

namespace BufferBlind

/-- An update of other fields. -/
theorem of_keeps {f : State → State}
    (h : ∀ (s : State) (m n : Memory),
      f (s.withBuffers m n) = (f s).withBuffers m n ∧ (f s).bufLen = s.bufLen ∧ (f s).idLen = s.idLen) :
    BufferBlind f where
  comm s m n := (h s m n).1
  bufLen_le s := by rw [(h s [] []).2.1]
  idLen_le s := by rw [(h s [] []).2.2]

theorem stay : BufferBlind id := of_keeps fun _ _ _ => ⟨rfl, rfl, rfl⟩

theorem comp {f g : State → State} (hg : BufferBlind g) (hf : BufferBlind f) : BufferBlind fun s => g (f s) :=
  ⟨fun s m n => by rw [hf.comm, hg.comm], fun s => (hg.bufLen_le _).trans (hf.bufLen_le s),
    fun s => (hg.idLen_le _).trans (hf.idLen_le s)⟩

/-- A choice by a condition on other fields. -/
theorem ite {f g : State → State} (c : State → Prop) [DecidablePred c]
    (hc : ∀ (s : State) (m n : Memory), c (s.withBuffers m n) ↔ c s) (hf : BufferBlind f) (hg : BufferBlind g) :
    BufferBlind fun s => if c s then f s else g s where
  comm s m n := by
    by_cases h : c s
    · rw [if_pos h, if_pos ((hc s m n).2 h), hf.comm]
    · rw [if_neg h, if_neg fun e => h ((hc s m n).1 e), hg.comm]
  bufLen_le s := by
    by_cases h : c s
    · rw [if_pos h]; exact hf.bufLen_le s
    · rw [if_neg h]; exact hg.bufLen_le s
  idLen_le s := by
    by_cases h : c s
    · rw [if_pos h]; exact hf.idLen_le s
    · rw [if_neg h]; exact hg.idLen_le s

/-! ### Results and requests -/

theorem setRes (c : ResultCode) : BufferBlind (State.setRes c) := of_keeps fun _ _ _ => ⟨rfl, rfl, rfl⟩

theorem setRej (b : Bool) : BufferBlind (State.setRej b) := of_keeps fun _ _ _ => ⟨rfl, rfl, rfl⟩

theorem endEngine (keep : Bool) : BufferBlind (State.endEngine keep) where
  comm _ _ _ := rfl
  bufLen_le s := by cases keep <;> simp [State.endEngine]
  idLen_le _ := le_rfl

theorem raiseResult (c : ResultCode) : BufferBlind (State.raiseResult c) :=
  ite (fun s => s.eng = .idle) (fun _ _ _ => Iff.rfl) (setRes c) ((endEngine _).comp (setRes c))

theorem clearClass : BufferBlind State.clearClass := of_keeps fun _ _ _ => ⟨rfl, rfl, rfl⟩

theorem answered : BufferBlind State.answered := of_keeps fun _ _ _ => ⟨rfl, rfl, rfl⟩

theorem completing {f : State → State} (hf : BufferBlind f) : BufferBlind (State.completing f) := (setRes .ok).comp hf

theorem issue (r : Request) : BufferBlind (State.issue r) := of_keeps fun _ _ _ => ⟨rfl, rfl, rfl⟩

theorem enterPhase (ph : D0Phase) (r : Request) : BufferBlind (State.enterPhase ph r) :=
  of_keeps fun _ _ _ => ⟨rfl, rfl, rfl⟩

/-! ### The frame scanner -/

theorem failAdd (k : Nat) : BufferBlind (State.failAdd k) :=
  have count : BufferBlind fun s => { s with failCnt := sat16 (s.failCnt.toNat + k) } :=
    of_keeps fun _ _ _ => ⟨rfl, rfl, rfl⟩
  (ite (fun s => s.overBudget = true) (fun _ _ _ => Iff.rfl) (raiseResult .budgetExceeded) stay).comp count

theorem discard : BufferBlind State.discard where
  comm s m n := (failAdd s.bufLen.toNat).comm { s with bufLen := 0, frPhase := .hunt, tailN := 0 } m n
  bufLen_le _ := ((failAdd _).bufLen_le _).trans (Nat.zero_le _)
  idLen_le _ := (failAdd _).idLen_le _

theorem overflow : BufferBlind State.overflow where
  comm s m n := (failAdd (s.bufLen.toNat + 1)).comm
    { s with bufLen := 0, status := { s.status with ovf := true }, frPhase := .hunt, tailN := 0 } m n
  bufLen_le _ := ((failAdd _).bufLen_le _).trans (Nat.zero_le _)
  idLen_le _ := (failAdd _).idLen_le _

theorem frContinue : BufferBlind State.frContinue :=
  ite (fun s => s.eng = .fr) (fun _ _ _ => Iff.rfl) (issue .rx) stay

theorem startScan : BufferBlind State.startScan := ⟨fun _ _ _ => rfl, fun _ => Nat.zero_le _, fun _ => le_rfl⟩

/-! ### The D0 engine -/

theorem sendFrom (ph : D0Phase) (seq : List Byte) {after : State → State} (ha : BufferBlind after) (k : Nat) :
    BufferBlind (State.sendFrom ph seq after k) := by
  by_cases h : k < seq.length
  · have e : State.sendFrom ph seq after k = fun s => State.enterPhase ph (.tx seq[k]) { s with seqK := k } :=
      funext fun s => State.sendFrom_of_lt h ph after s
    rw [e]
    exact of_keeps fun _ _ _ => ⟨rfl, rfl, rfl⟩
  · have e : State.sendFrom ph seq after k = after := funext fun s => State.sendFrom_of_le (by omega) ph after s
    rw [e]
    exact ha

theorem sendSignon (k : Nat) : BufferBlind (State.sendSignon k) := sendFrom _ _ (enterPhase _ _) k

theorem sendSignoff (k : Nat) : BufferBlind (State.sendSignoff k) := sendFrom _ _ (enterPhase _ _) k

theorem enterAckWait : BufferBlind State.enterAckWait := of_keeps fun _ _ _ => ⟨rfl, rfl, rfl⟩

theorem sendAck (k : Nat) : BufferBlind (State.sendAck k) where
  comm s m n := (sendFrom .ackTx (ackSeq s.zchar) enterAckWait k).comm s m n
  bufLen_le s := (sendFrom .ackTx (ackSeq s.zchar) enterAckWait k).bufLen_le s
  idLen_le s := (sendFrom .ackTx (ackSeq s.zchar) enterAckWait k).idLen_le s

theorem enterSettle : BufferBlind State.enterSettle := of_keeps fun _ _ _ => ⟨rfl, rfl, rfl⟩

theorem sendWake (k : Nat) : BufferBlind (State.sendWake k) :=
  ite (fun s => k ≤ s.cfg.wakeCount) (fun _ _ _ => Iff.rfl) (of_keeps fun _ _ _ => ⟨rfl, rfl, rfl⟩) enterSettle

theorem afterSetbaud0 : BufferBlind State.afterSetbaud0 :=
  ite (fun s => s.wakeEn = true) (fun _ _ _ => Iff.rfl) (sendWake 1) (enterPhase _ _)

theorem enterBaudB : BufferBlind State.enterBaudB := of_keeps fun _ _ _ => ⟨rfl, rfl, rfl⟩

theorem enterBaudC : BufferBlind State.enterBaudC := of_keeps fun _ _ _ => ⟨rfl, rfl, rfl⟩

theorem afterDetect (m : Mode) : BufferBlind (State.afterDetect m) :=
  ite (fun _ => m = .b) (fun _ _ _ => Iff.rfl) enterBaudB
    (ite (fun _ => m.isNegotiated = true) (fun _ _ _ => Iff.rfl) (sendAck 0) (enterPhase _ _))

theorem terminal : BufferBlind State.terminal where
  comm s m n := (raiseResult s.d0res.verdict.result).comm s m n
  bufLen_le s := (raiseResult _).bufLen_le s
  idLen_le s := (raiseResult _).idLen_le s

theorem signOff : BufferBlind State.signOff :=
  ite (fun s => s.d0res.mode.isNegotiated = true) (fun _ _ _ => Iff.rfl) (sendSignoff 0) terminal

theorem endOfTelegram : BufferBlind State.endOfTelegram :=
  have latch : BufferBlind fun s => { s with bcc := { s.bcc with lrcCalc := lrcFinish s.lrc } } :=
    of_keeps fun _ _ _ => ⟨rfl, rfl, rfl⟩
  (ite (fun s => (s.d0res.stxSeen && s.d0res.etxSeen) = true) (fun _ _ _ => Iff.rfl)
    (enterPhase .bccRd .rx) signOff).comp latch

theorem obtained : BufferBlind State.obtain := endOfTelegram.comp (of_keeps fun _ _ _ => ⟨rfl, rfl, rfl⟩)

theorem telEtx : BufferBlind State.telEtx := obtained.comp (of_keeps fun _ _ _ => ⟨rfl, rfl, rfl⟩)

theorem telStx : BufferBlind State.telStx := of_keeps fun _ _ _ => ⟨rfl, rfl, rfl⟩

theorem telBang (b : Byte) : BufferBlind (State.telBang b) :=
  have mark : BufferBlind fun s => { s with d0res := { s.d0res with bangSeen := true }, bangCnt := 0 } :=
    of_keeps fun _ _ _ => ⟨rfl, rfl, rfl⟩
  have count : BufferBlind fun s => { s with bangCnt := s.bangCnt + 1 } := of_keeps fun _ _ _ => ⟨rfl, rfl, rfl⟩
  ite (fun s => s.d0res.bangSeen = true) (fun _ _ _ => Iff.rfl)
    ((ite (fun s => s.bangCnt = s.cfg.bangBudget) (fun _ _ _ => Iff.rfl) obtained (enterPhase _ _)).comp count)
    (ite (fun _ => b = chBang) (fun _ _ _ => Iff.rfl) ((enterPhase .tel .rx).comp mark) (enterPhase .tel .rx))

theorem telTimeout : BufferBlind State.telTimeout :=
  ite (fun s => s.d0res.bangSeen = true) (fun _ _ _ => Iff.rfl) obtained (raiseResult .timeout)

theorem bccByte (c : Byte) : BufferBlind (State.bccByte c) := signOff.comp (of_keeps fun _ _ _ => ⟨rfl, rfl, rfl⟩)

theorem bccTimeout : BufferBlind State.bccTimeout := signOff.comp (of_keeps fun _ _ _ => ⟨rfl, rfl, rfl⟩)

theorem startCycle : BufferBlind State.startCycle := ⟨fun _ _ _ => rfl, fun _ => Nat.zero_le _, fun _ => Nat.zero_le _⟩

end BufferBlind

end Sys2Proof.Machine
end

section

/-! No step reads an undefined buffer byte (O60). -/

namespace Sys2Proof.Machine

variable {s t : State}

/-! ### The relation -/

theorem SameDefined.eq_withBuffers (h : SameDefined s t) : t = s.withBuffers t.tbuf t.ibuf := h.others.symm

theorem SameDefined.refl (s : State) : SameDefined s s := ⟨rfl, fun _ _ => rfl, fun _ _ => rfl⟩

/-- What does not look at the buffers' bytes is the same in related blocks. -/
theorem SameDefined.field {α : Type} (h : SameDefined s t) (f : State → α)
    (hf : ∀ (u : State) (m n : Memory), f (u.withBuffers m n) = f u) : f t = f s := by
  rw [h.eq_withBuffers, hf]

/-- An operation that is blind to the buffers keeps the relation. -/
theorem SameDefined.map {f : State → State} (h : SameDefined s t) (hf : BufferBlind f) : SameDefined (f s) (f t) := by
  have hs := hf.comm s s.tbuf s.ibuf
  have ht := hf.comm s t.tbuf t.ibuf
  rw [← h.eq_withBuffers] at ht
  have hsb : (f s).tbuf = s.tbuf := (congrArg State.tbuf hs :)
  have hsi : (f s).ibuf = s.ibuf := (congrArg State.ibuf hs :)
  have htb : (f t).tbuf = t.tbuf := (congrArg State.tbuf ht :)
  have hti : (f t).ibuf = t.ibuf := (congrArg State.ibuf ht :)
  refine ⟨?_, fun i hi => ?_, fun i hi => ?_⟩
  · rw [htb, hti]
    exact ht.symm
  · rw [hsb, htb]
    exact h.tbuf i (lt_of_lt_of_le hi (hf.bufLen_le s))
  · rw [hsi, hti]
    exact h.ibuf i (lt_of_lt_of_le hi (hf.idLen_le s))

/-- An update that reads no buffer and writes no buffer or length keeps the relation. -/
theorem SameDefined.update {f : State → State} (h : SameDefined s t)
    (hf : ∀ (u : State) (m n : Memory),
      f (u.withBuffers m n) = (f u).withBuffers m n ∧ (f u).bufLen = u.bufLen ∧ (f u).idLen = u.idLen) :
    SameDefined (f s) (f t) :=
  h.map (.of_keeps hf)

/-! ### Storing a byte -/

/-- Two buffers that agree below a length agree below the next one when the same byte is stored at it. -/
theorem Memory.read_write_congr {m m' : Memory} (hm : m.wf = true) (hm' : m'.wf = true) {n : Nat}
    (h : ∀ i, i < n → m.read i = m'.read i) (b : Byte) {i : Nat} (hi : i < n + 1) :
    (m.write n b).read i = (m'.write n b).read i := by
  by_cases e : i = n
  · rw [e, Memory.read_write_same hm, Memory.read_write_same hm']
  · rw [Memory.read_write_ne e, Memory.read_write_ne e]
    exact h i (by omega)

theorem SameDefined.appendTbuf (h : SameDefined s t) (hs : s.BufferInv) (ht : t.BufferInv) (hf : s.tbufFull = false)
    (b : Byte) : SameDefined (s.appendTbuf b) (t.appendTbuf b) := by
  have hl : t.bufLen = s.bufLen := h.field State.bufLen fun _ _ _ => rfl
  refine ⟨by rw [h.eq_withBuffers]; rfl, fun i hi => ?_, h.ibuf⟩
  rw [hs.appendTbuf_length hf] at hi
  rw [State.appendTbuf_tbuf, State.appendTbuf_tbuf, hl]
  exact Memory.read_write_congr hs.tbuf_wf ht.tbuf_wf h.tbuf b hi

theorem SameDefined.appendIbuf (h : SameDefined s t) (hs : s.BufferInv) (ht : t.BufferInv) (hf : s.ibufFull = false)
    (b : Byte) : SameDefined (s.appendIbuf b) (t.appendIbuf b) := by
  have hl : t.idLen = s.idLen := h.field State.idLen fun _ _ _ => rfl
  refine ⟨by rw [h.eq_withBuffers]; rfl, h.tbuf, fun i hi => ?_⟩
  rw [hs.appendIbuf_length hf] at hi
  rw [State.appendIbuf_ibuf, State.appendIbuf_ibuf, hl]
  exact Memory.read_write_congr hs.ibuf_wf ht.ibuf_wf h.ibuf b hi

theorem SameDefined.startCandidate (h : SameDefined s t) (hs : s.BufferInv) (ht : t.BufferInv) (b : Byte) :
    SameDefined (s.startCandidate b) (t.startCandidate b) := by
  refine ⟨by rw [h.eq_withBuffers]; rfl, fun i hi => ?_, h.ibuf⟩
  exact Memory.read_write_congr hs.tbuf_wf ht.tbuf_wf (n := 0) (fun _ h => absurd h (Nat.not_lt_zero _)) b hi

/-! ### The frame scanner -/

theorem SameDefined.frHunt (h : SameDefined s t) (hs : s.BufferInv) (ht : t.BufferInv) (b : Byte) :
    SameDefined (s.frHunt b) (t.frHunt b) := by
  unfold State.frHunt
  split
  · exact h.startCandidate hs ht b
  · exact h.map (.failAdd 1)

theorem SameDefined.frBody (h : SameDefined s t) (hs : s.BufferInv) (ht : t.BufferInv) (b : Byte) :
    SameDefined (s.frBody b) (t.frBody b) := by
  have hl : t.bufLen = s.bufLen := h.field State.bufLen fun _ _ _ => rfl
  have hfull : t.tbufFull = s.tbufFull := h.field State.tbufFull fun _ _ _ => rfl
  unfold State.frBody
  rw [hl, hfull]
  split
  · exact (h.startCandidate hs ht b).map (.failAdd _)
  split
  · exact h.map .overflow
  rename_i hf
  have ha := h.appendTbuf hs ht (by simpa using hf) b
  split
  · exact ha.update (f := fun u => { u with frPhase := .tail, tailN := 0 }) fun _ _ _ => ⟨rfl, rfl, rfl⟩
  · exact ha

/-- The bytes of a tail chunk are below the length. -/
theorem SameDefined.tailByte (h : SameDefined s t) (hn : s.tailN ≤ s.bufLen.toNat) {j : Nat} (hj : j < s.tailN) :
    t.tailByte j = s.tailByte j := by
  have hl : t.bufLen = s.bufLen := h.field State.bufLen fun _ _ _ => rfl
  have hk : t.tailN = s.tailN := h.field State.tailN fun _ _ _ => rfl
  rw [State.tailByte, State.tailByte, hl, hk]
  exact (h.tbuf _ (by omega)).symm

theorem SameDefined.checkTail (h : SameDefined s t) (hn : s.tailN ≤ s.bufLen.toNat) :
    SameDefined s.checkTail t.checkTail := by
  have hk : t.tailN = s.tailN := h.field State.tailN fun _ _ _ => rfl
  have hok : s.tailN = 6 → t.newTailOk = s.newTailOk := fun h6 => by
    have hb : ∀ j, j < 6 → t.tailByte j = s.tailByte j := fun j hj => h.tailByte hn (by omega)
    simp only [State.newTailOk, hb 0 (by decide), hb 1 (by decide), hb 2 (by decide), hb 3 (by decide),
      hb 4 (by decide), hb 5 (by decide)]
  have hshort : s.tailN = 2 → t.tailByte 0 = s.tailByte 0 ∧ t.tailByte 1 = s.tailByte 1 := fun h2 =>
    ⟨h.tailByte hn (by omega), h.tailByte hn (by omega)⟩
  have hend := h.map (.raiseResult .ok)
  have hdis := h.map .discard
  rcases s.checkTail_cases with ⟨h2, h0, h1, e⟩ | ⟨h2, h0, h1, e⟩ | ⟨h6, hx, e⟩ | ⟨h6, hx, e⟩ | ⟨h6, h2, e⟩ <;> rw [e]
  · obtain ⟨e0, e1⟩ := hshort h2
    rwa [State.checkTail, if_pos ⟨hk.trans h2, e0.trans h0⟩, if_pos (e1.trans h1)]
  · obtain ⟨e0, e1⟩ := hshort h2
    rwa [State.checkTail, if_pos ⟨hk.trans h2, e0.trans h0⟩, if_neg (e1 ▸ h1)]
  · rwa [State.checkTail, if_neg (by omega), if_pos (hk.trans h6), hok h6, if_pos hx]
  · rwa [State.checkTail, if_neg (by omega), if_pos (hk.trans h6), hok h6, if_neg (by simp [hx])]
  · have h2' : ¬(t.tailN = 2 ∧ t.tailByte 0 = chCR) := fun ⟨a, c⟩ =>
      have hs2 := hk.symm.trans a
      h2 ⟨hs2, (hshort hs2).1.symm.trans c⟩
    rwa [State.checkTail, if_neg h2', if_neg (hk ▸ h6)]

theorem SameDefined.frTail (h : SameDefined s t) (hs : s.BufferInv) (ht : t.BufferInv)
    (hn : s.tailN ≤ s.bufLen.toNat) (b : Byte) : SameDefined (s.frTail b) (t.frTail b) := by
  have hfull : t.tbufFull = s.tbufFull := h.field State.tbufFull fun _ _ _ => rfl
  unfold State.frTail
  rw [hfull]
  split
  · exact h.map .overflow
  rename_i hf
  have hf : s.tbufFull = false := by simpa using hf
  have ha := (h.appendTbuf hs ht hf b).update (f := fun u => { u with tailN := u.tailN + 1 })
    fun _ _ _ => ⟨rfl, rfl, rfl⟩
  refine ha.checkTail ?_
  have hl := hs.appendTbuf_length hf b
  simp only [State.appendTbuf_tailN]
  omega

theorem SameDefined.frByte (h : SameDefined s t) (hs : s.Scanning) (ht : t.Scanning) (b : Byte) :
    SameDefined (s.frByte b) (t.frByte b) := by
  have hp : t.frPhase = s.frPhase := h.field State.frPhase fun _ _ _ => rfl
  cases hph : s.frPhase with
  | hunt =>
    rw [State.frByte_hunt hph, State.frByte_hunt (hp.trans hph)]
    exact h.frHunt hs.sound.buffers ht.sound.buffers b
  | body =>
    rw [State.frByte_body hph, State.frByte_body (hp.trans hph)]
    exact h.frBody hs.sound.buffers ht.sound.buffers b
  | tail =>
    have hroom := hs.phases.tail_room hs.eng hph
    rw [State.frByte_tail hph, State.frByte_tail (hp.trans hph)]
    exact h.frTail hs.sound.buffers ht.sound.buffers (by omega) b

theorem SameDefined.frRespond (h : SameDefined s t) (hs : s.Scanning) (ht : t.Scanning) (a : Response) :
    Option.Rel SameDefined (s.frRespond a) (t.frRespond a) := by
  cases a with
  | timeout => exact .some (h.map (.raiseResult _))
  | ioerr => exact .some (h.map (.raiseResult _))
  | byte b => exact .some ((h.frByte hs ht b).map .frContinue)
  | ok => exact .none
  | done => exact .none

/-! ### The D0 engine -/

theorem SameDefined.detectMode (h : SameDefined s t) : SameDefined s.detectMode t.detectMode := by
  have hl : t.idLen = s.idLen := h.field State.idLen fun _ _ _ => rfl
  have hline : t.ibuf.firstBytes (t.idLen.toNat - 2) = s.ibuf.firstBytes (s.idLen.toNat - 2) := by
    rw [hl]
    exact Memory.firstBytes_congr fun i hi => (h.ibuf i (by omega)).symm
  unfold State.detectMode
  rw [hline]
  split
  · rename_i m k hd
    obtain ⟨h5, _⟩ := modeDetect_detected hd
    rw [Memory.firstBytes_length] at h5
    have hz : t.ibuf.read 4 = s.ibuf.read 4 := (h.ibuf 4 (by omega)).symm
    have hr : SameDefined (s.recordMode m k) (t.recordMode m k) := by
      unfold State.recordMode
      rw [hz]
      exact h.update (f := fun u =>
        { u with d0res := { u.d0res with mode := m, baud := k }, rateCode := k, zchar := s.ibuf.read 4 })
        fun _ _ _ => ⟨rfl, rfl, rfl⟩
    rw [State.negotiate_eq, State.negotiate_eq]
    exact hr.map (.afterDetect m)
  · exact h.map (.raiseResult _)

theorem SameDefined.endOfLine (h : SameDefined s t) : SameDefined s.endOfLine t.endOfLine := by
  have hl : t.idLen = s.idLen := h.field State.idLen fun _ _ _ => rfl
  by_cases h2 : 2 ≤ s.idLen.toNat
  · have hr : t.ibuf.read (s.idLen.toNat - 2) = s.ibuf.read (s.idLen.toNat - 2) := (h.ibuf _ (by omega)).symm
    unfold State.endOfLine
    rw [hl, hr]
    split
    · exact h.detectMode
    · exact h.map (.raiseResult _)
  · rw [State.endOfLine, State.endOfLine, if_neg fun e => h2 e.1, if_neg fun e => h2 (hl ▸ e.1)]
    exact h.map (.raiseResult _)

theorem SameDefined.identByte (h : SameDefined s t) (hs : s.BufferInv) (ht : t.BufferInv) (b : Byte) :
    SameDefined (s.identByte b) (t.identByte b) := by
  have hl : t.idLen = s.idLen := h.field State.idLen fun _ _ _ => rfl
  have hfull : t.ibufFull = s.ibufFull := h.field State.ibufFull fun _ _ _ => rfl
  unfold State.identByte
  rw [hl, hfull]
  split
  · exact h.map (.raiseResult _)
  split
  · exact h.map (.raiseResult _)
  rename_i hf
  have ha := h.appendIbuf hs ht (by simpa using hf) b
  split
  · exact ha.endOfLine
  · exact ha.map (.enterPhase _ _)

theorem SameDefined.telByte (h : SameDefined s t) (hs : s.BufferInv) (ht : t.BufferInv) (b : Byte) :
    SameDefined (s.telByte b) (t.telByte b) := by
  have hstx : t.d0res.stxSeen = s.d0res.stxSeen := h.field (fun u => u.d0res.stxSeen) fun _ _ _ => rfl
  have hfull : t.tbufFull = s.tbufFull := h.field State.tbufFull fun _ _ _ => rfl
  unfold State.telByte
  rw [hstx, hfull]
  split
  · exact h.map .telEtx
  split
  · exact h.map (.comp (.telBang b) .telStx)
  split
  · exact h.map (.raiseResult _)
  rename_i hf
  have ha := h.appendTbuf hs ht (by simpa using hf) b
  have hst : SameDefined (s.telStore b) (t.telStore b) :=
    ha.update (f := fun u => { u with lrc := if u.d0res.stxSeen then lrcStep u.lrc b else u.lrc })
      fun _ _ _ => ⟨rfl, rfl, rfl⟩
  exact hst.map (.telBang b)

theorem SameDefined.d0Advance (h : SameDefined s t) (hs : s.BufferInv) (ht : t.BufferInv) (a : Response) :
    Option.Rel SameDefined (s.d0Advance a) (t.d0Advance a) := by
  have hp : t.d0Phase = s.d0Phase := h.field State.d0Phase fun _ _ _ => rfl
  have hk : t.seqK = s.seqK := h.field State.seqK fun _ _ _ => rfl
  unfold State.d0Advance
  rw [hp, hk]
  split
  · exact .some (h.map .afterSetbaud0)
  · exact .some (h.map (.sendWake _))
  · exact .some (h.map (.enterPhase _ _))
  · exact .some (h.map (.sendSignon _))
  · exact .some (h.map (.sendSignon _))
  · exact .some (h.identByte hs ht _)
  · exact .some (h.map (.raiseResult _))
  · exact .some (h.map (.enterPhase _ _))
  · exact .some (h.map (.sendAck _))
  · exact .some (h.map .enterBaudC)
  · exact .some (h.map (.enterPhase _ _))
  · exact .some (h.telByte hs ht _)
  · exact .some (h.map .telTimeout)
  · exact .some (h.map (.bccByte _))
  · exact .some (h.map .bccTimeout)
  · exact .some (h.map (.sendSignoff _))
  · exact .some (h.map .terminal)
  · exact .none

theorem SameDefined.d0Respond (h : SameDefined s t) (hs : s.BufferInv) (ht : t.BufferInv) (a : Response) :
    Option.Rel SameDefined (s.d0Respond a) (t.d0Respond a) := by
  unfold State.d0Respond
  split
  · exact .some (h.map (.raiseResult _))
  · exact h.d0Advance hs ht a

/-! ### Moves -/

theorem SameDefined.respond (h : SameDefined s t) (hs : s.Inv) (ht : t.Inv) (a : Response) :
    OutcomeRel SameDefined (s.respond a) (t.respond a) := by
  have hp : t.pending = s.pending := h.field State.pending fun _ _ _ => rfl
  have he : t.eng = s.eng := h.field State.eng fun _ _ _ => rfl
  have ha := h.map .answered
  have hc : Option.Rel SameDefined (s.answered.engineConsume a) (t.answered.engineConsume a) := by
    unfold State.engineConsume
    rw [State.answered_eng, State.answered_eng, he]
    split
    · exact .none
    · rename_i hf
      exact ha.frRespond (hs.scanning hf) (ht.scanning (he.trans hf)) a
    · exact ha.d0Respond { hs.buffers with } { ht.buffers with } a
  unfold State.respond
  rw [hp]
  split
  · rfl
  generalize s.answered.engineConsume a = x, t.answered.engineConsume a = y at hc ⊢
  split
  · cases hc with
    | none => rfl
    | some hr => exact hr
  · rfl

/-- Accepting a command keeps the relation when its rule does. -/
theorem SameDefined.acceptCommand (h : SameDefined s t) {rule : State → State}
    (hr : SameDefined (rule (s.setRej false)) (rule (t.setRej false))) :
    OutcomeRel SameDefined (acceptCommand rule s) (acceptCommand rule t) := by
  have hb : t.status = s.status := h.field State.status fun _ _ _ => rfl
  unfold Machine.acceptCommand
  rw [hb]
  split
  · exact h.map (.setRej true)
  · exact hr

theorem SameDefined.pushByte (h : SameDefined s t) (hs : s.BufferInv) (ht : t.BufferInv) (d : Byte) :
    SameDefined (s.pushByte d) (t.pushByte d) := by
  have hfull : t.tbufFull = s.tbufFull := h.field State.tbufFull fun _ _ _ => rfl
  unfold State.pushByte
  rw [hfull]
  split
  · exact h.map (.raiseResult _)
  · rename_i hf
    exact (h.appendTbuf hs ht (by simpa using hf) d).map (.completing .clearClass)

theorem SameDefined.telegram (h : SameDefined s t) : t.telegram = s.telegram := by
  have hl : t.bufLen = s.bufLen := h.field State.bufLen fun _ _ _ => rfl
  rw [State.telegram, State.telegram, hl]
  exact Memory.firstBytes_congr fun i hi => (h.tbuf i hi).symm

theorem SameDefined.exec (h : SameDefined s t) (hs : s.BufferInv) (ht : t.BufferInv) (i : Instr) :
    OutcomeRel SameDefined (exec i s) (exec i t) := by
  have hr := h.map (.setRej false)
  cases i with
  | nop | crcaInit | crcaByte d | crccInit | crccByte d | lrcInit | lrcByte d =>
    exact h.acceptCommand (hr.map (.completing (.of_keeps fun _ _ _ => ⟨rfl, rfl, rfl⟩)))
  | bufClear =>
    exact h.acceptCommand (hr.map (.completing ⟨fun _ _ _ => rfl, fun _ => Nat.zero_le _, fun _ => le_rfl⟩))
  | bufPush d => exact h.acceptCommand (hr.pushByte { hs with } { ht with } d)
  | classify =>
    refine h.acceptCommand ?_
    unfold State.completing
    dsimp only
    rw [hr.telegram]
    exact hr.update (f := fun u => State.setRes .ok
      { u with cls := (classifyTail (s.setRej false).telegram).1, chk := (classifyTail (s.setRej false).telegram).2 })
      fun _ _ _ => ⟨rfl, rfl, rfl⟩
  | frScan => exact h.acceptCommand (hr.map .startScan)
  | d0Cycle => exact h.acceptCommand (hr.map .startCycle)

theorem SameDefined.hostWrite (h : SameDefined s t) (hs : s.BufferInv) (ht : t.BufferInv) (addr : RegAddr) (v : Word) :
    OutcomeRel SameDefined (hostWrite addr v s) (hostWrite addr v t) := by
  have hillegal : OutcomeRel SameDefined (illegalCommand s) (illegalCommand t) :=
    h.acceptCommand ((h.map (.setRej false)).map (.raiseResult _))
  unfold Machine.hostWrite
  split
  · unfold writeCommand
    split
    · exact h.exec hs ht _
    · exact hillegal
    · exact hillegal
  · exact h.map (.ite (fun u => u.status.busy = true) (fun _ _ _ => Iff.rfl) (.setRej true)
      (.of_keeps fun _ _ _ => ⟨rfl, rfl, rfl⟩))
  · exact h.map (.ite (fun u => u.status.busy = true) (fun _ _ _ => Iff.rfl) (.setRej true)
      (.of_keeps fun _ _ _ => ⟨rfl, rfl, rfl⟩))
  · exact h

/-- A buffer read delivers the same byte: a defined one, or the same draw. -/
theorem SameDefined.readBuf (h : SameDefined s t) (sp : Space) (i : Word) : t.readBuf sp i = s.readBuf sp i := by
  have hlen : t.spaceLen sp = s.spaceLen sp := h.field (State.spaceLen · sp) fun _ _ _ => rfl
  have hcap : t.spaceCap sp = s.spaceCap sp := h.field (State.spaceCap · sp) fun _ _ _ => rfl
  have hd : t.drawCount = s.drawCount := h.field State.drawCount fun _ _ _ => rfl
  unfold State.readBuf
  rw [hlen, hcap, hd]
  split
  · rename_i hi
    cases sp with
    | tbuf => exact (h.tbuf _ hi).symm
    | ibuf => exact (h.ibuf _ hi).symm
  · rfl

theorem SameDefined.takeMove (h : SameDefined s t) (hs : s.Inv) (ht : t.Inv) (m : Move) :
    OutcomeRel SameDefined (takeMove m s) (takeMove m t) := by
  cases m with
  | hostWrite addr v => exact h.hostWrite hs.buffers ht.buffers addr v
  | hostRead addr => exact h.update (f := State.hostRead addr) fun _ _ _ => ⟨rfl, rfl, rfl⟩
  | hostBufRead sp i =>
    show SameDefined (s.hostBufRead sp i) (t.hostBufRead sp i)
    unfold State.hostBufRead
    rw [h.readBuf]
    exact h.update (f := fun u =>
      { u with
        lastRead := some (.byte (s.readBuf sp i))
        drawCount := if u.draws sp i then u.drawCount + 1 else u.drawCount }) fun _ _ _ => ⟨rfl, rfl, rfl⟩
  | respond a => exact h.respond hs ht a
  | reset =>
    have e : t.resetBlock = s.resetBlock := h.field State.resetBlock fun _ _ _ => rfl
    show SameDefined s.resetBlock t.resetBlock
    rw [e]
    exact .refl _

/-- Settles O60: each operation reads only bytes below the lengths, so related blocks take the same step. -/
theorem undefinedBytesNeverMatter : Obligations.UndefinedBytesNeverMatter := by
  intro s t hs ht h
  have hi : t.inbox = s.inbox := h.field State.inbox fun _ _ _ => rfl
  unfold step stepInbox
  rw [hi]
  split
  · exact h
  · rename_i m rest _
    have hr := h.update (f := fun u => { u with inbox := rest }) fun _ _ _ => ⟨rfl, rfl, rfl⟩
    exact hr.takeMove (hs.congr rfl) (ht.congr rfl) m

end Sys2Proof.Machine
end

section

/-! Which moves write which register, flag and buffer (O27). -/

namespace Sys2Proof.Machine

variable {s t : State}

/-! ### The rules of the commands -/

/-- The rule a command runs once it is accepted (spec/41_buffer_and_host.md R452). -/
def commandRule : Instr → State → State
  | .nop => State.completing fun t => t
  | .crcaInit => State.completing fun t => { t with crca := initA }
  | .crcaByte d => State.completing fun t => { t with crca := crcAStep t.crca d }
  | .crccInit => State.completing fun t => { t with crcc := initC }
  | .crccByte d => State.completing fun t => { t with crcc := crcCStep t.crcc d }
  | .lrcInit => State.completing fun t => { t with lrc := lrcSeed }
  | .lrcByte d => State.completing fun t => { t with lrc := lrcStep t.lrc d }
  | .bufClear => State.completing fun t => ({ t with bufLen := 0 } : State).clearClass
  | .bufPush d => State.pushByte d
  | .classify =>
    State.completing fun t => { t with cls := (classifyTail t.telegram).1, chk := (classifyTail t.telegram).2 }
  | .frScan => State.startScan
  | .d0Cycle => State.startCycle

theorem exec_eq_acceptCommand (i : Instr) (s : State) : exec i s = acceptCommand (commandRule i) s := by
  cases i <;> rfl

/-- The state with everything BUF_PUSH may write blanked out. -/
def State.outsidePush (s : State) : State :=
  { s with
    bufLen := 0, tbuf := [], cls := .none, chk := 0, eng := .idle, pending := none
    status := { s.status with busy := false, res := .none } }

theorem State.pushByte_outside (d : Byte) (s : State) : (s.pushByte d).outsidePush = s.outsidePush := by
  unfold State.pushByte State.raiseResult
  split
  · split <;> rfl
  · rfl

@[simp] theorem State.raiseResult_ovf (c : ResultCode) (s : State) : (s.raiseResult c).status.ovf = s.status.ovf := by
  unfold State.raiseResult; split <;> rfl

@[simp] theorem State.raiseResult_rej (c : ResultCode) (s : State) : (s.raiseResult c).status.rej = s.status.rej := by
  unfold State.raiseResult; split <;> rfl

theorem State.raiseResult_not_busy (s : State) (c : ResultCode) (h : s.status.busy = false) :
    (s.raiseResult c).status.busy = false :=
  (s.raiseResult_busy c).elim (·.trans h) id

section
variable (i : Instr) (s : State)

theorem commandRule_crca : (commandRule i s).crca = s.crca ∨ i = .crcaInit ∨ ∃ d, i = .crcaByte d := by
  cases i with
  | crcaInit => exact .inr (.inl rfl)
  | crcaByte d => exact .inr (.inr ⟨d, rfl⟩)
  | bufPush d => exact .inl (congrArg State.crca (s.pushByte_outside d) :)
  | _ => exact .inl rfl

theorem commandRule_crcc : (commandRule i s).crcc = s.crcc ∨ i = .crccInit ∨ ∃ d, i = .crccByte d := by
  cases i with
  | crccInit => exact .inr (.inl rfl)
  | crccByte d => exact .inr (.inr ⟨d, rfl⟩)
  | bufPush d => exact .inl (congrArg State.crcc (s.pushByte_outside d) :)
  | _ => exact .inl rfl

theorem commandRule_lrc : (commandRule i s).lrc = s.lrc ∨ i = .lrcInit ∨ i = .d0Cycle ∨ ∃ d, i = .lrcByte d := by
  cases i with
  | lrcInit => exact .inr (.inl rfl)
  | d0Cycle => exact .inr (.inr (.inl rfl))
  | lrcByte d => exact .inr (.inr (.inr ⟨d, rfl⟩))
  | bufPush d => exact .inl (congrArg State.lrc (s.pushByte_outside d) :)
  | _ => exact .inl rfl

theorem commandRule_wakeEn : (commandRule i s).wakeEn = s.wakeEn := by
  cases i with
  | bufPush d => exact (congrArg State.wakeEn (s.pushByte_outside d) :)
  | _ => rfl

theorem commandRule_budget : (commandRule i s).budget = s.budget := by
  cases i with
  | bufPush d => exact (congrArg State.budget (s.pushByte_outside d) :)
  | _ => rfl

theorem commandRule_bufLen : (commandRule i s).bufLen = s.bufLen ∨ i = .bufClear ∨ i = .frScan ∨ i = .d0Cycle ∨
    ∃ d, i = .bufPush d := by
  cases i with
  | bufClear => exact .inr (.inl rfl)
  | frScan => exact .inr (.inr (.inl rfl))
  | d0Cycle => exact .inr (.inr (.inr (.inl rfl)))
  | bufPush d => exact .inr (.inr (.inr (.inr ⟨d, rfl⟩)))
  | _ => exact .inl rfl

theorem commandRule_tbuf : (commandRule i s).tbuf = s.tbuf ∨ ∃ d, i = .bufPush d := by
  cases i with
  | bufPush d => exact .inr ⟨d, rfl⟩
  | _ => exact .inl rfl

theorem commandRule_failures :
    ((commandRule i s).failCnt = s.failCnt ∧ (commandRule i s).status.ovf = s.status.ovf) ∨ i = .frScan := by
  cases i with
  | frScan => exact .inr rfl
  | bufPush d =>
    have h := s.pushByte_outside d
    exact .inl ⟨(congrArg State.failCnt h :), (congrArg (fun u : State => u.status.ovf) h :)⟩
  | _ => exact .inl ⟨rfl, rfl⟩

theorem commandRule_class : ((commandRule i s).cls = s.cls ∧ (commandRule i s).chk = s.chk) ∨ i = .classify ∨
    i = .bufClear ∨ i = .frScan ∨ i = .d0Cycle ∨ ∃ d, i = .bufPush d := by
  cases i with
  | classify => exact .inr (.inl rfl)
  | bufClear => exact .inr (.inr (.inl rfl))
  | frScan => exact .inr (.inr (.inr (.inl rfl)))
  | d0Cycle => exact .inr (.inr (.inr (.inr (.inl rfl))))
  | bufPush d => exact .inr (.inr (.inr (.inr (.inr ⟨d, rfl⟩))))
  | _ => exact .inl ⟨rfl, rfl⟩

theorem commandRule_handshake : ((commandRule i s).d0res = s.d0res ∧ (commandRule i s).bcc = s.bcc ∧
    (commandRule i s).idLen = s.idLen ∧ (commandRule i s).ibuf = s.ibuf) ∨ i = .d0Cycle := by
  cases i with
  | d0Cycle => exact .inr rfl
  | bufPush d =>
    have h := s.pushByte_outside d
    exact .inl ⟨(congrArg State.d0res h :), (congrArg State.bcc h :), (congrArg State.idLen h :),
      (congrArg State.ibuf h :)⟩
  | _ => exact .inl ⟨rfl, rfl, rfl, rfl⟩

theorem commandRule_rej : (commandRule i s).status.rej = s.status.rej := by
  cases i with
  | bufPush d => exact (congrArg (fun u : State => u.status.rej) (s.pushByte_outside d) :)
  | _ => rfl

theorem State.pushByte_busy (d : Byte) (h : s.status.busy = false) : (s.pushByte d).status.busy = false := by
  unfold State.pushByte
  split
  · exact s.raiseResult_not_busy _ h
  · exact h

/-- A command accepted while BUSY = 0 sets BUSY only when it starts an engine. -/
theorem commandRule_busy (h : s.status.busy = false) :
    (commandRule i s).status.busy = false ∨
      ((commandRule i s).status.busy = true ∧ (i = .frScan ∨ i = .d0Cycle)) := by
  cases i with
  | frScan => exact .inr ⟨rfl, .inl rfl⟩
  | d0Cycle => exact .inr ⟨rfl, .inr rfl⟩
  | bufPush d => exact .inl (s.pushByte_busy d h)
  | _ => exact .inl h

end

/-! ### What a move can do -/

/-- What a move other than Reset can do: a refused write, an accepted command, an accepted illegal word, a CONFIG or
BUDGET write, a move that changes no register, or a response to a running scan or cycle. -/
inductive MoveEffect (s t : State) : Move → Prop where
  | refused {a v} (ha : a = 0x00 ∨ a = 0x02 ∨ a = 0x03) (hb : s.status.busy = true) (ht : t = s.setRej true) :
      MoveEffect s t (.hostWrite a v)
  | command {w} (i : Instr) (hd : decodeCommand w = .instr i) (hb : s.status.busy = false)
      (ht : t = commandRule i (s.setRej false)) : MoveEffect s t (.hostWrite 0x00 w)
  | illegal {w} (hb : s.status.busy = false) (ht : t = (s.setRej false).raiseResult .illegalCmd) :
      MoveEffect s t (.hostWrite 0x00 w)
  | config {v} (ht : t = { s with wakeEn := v.getLsbD 0 }) : MoveEffect s t (.hostWrite 0x02 v)
  | budget {v} (ht : t = { s with budget := v }) : MoveEffect s t (.hostWrite 0x03 v)
  | quiet {m} (ht : t = { s with lastRead := t.lastRead, drawCount := t.drawCount }) : MoveEffect s t m
  | scan {a} (he : s.eng = .fr) (hf : ScanFrame s t) : MoveEffect s t (.respond a)
  | cycle {a} (he : s.eng = .d0) (hf : CycleFrame s t) : MoveEffect s t (.respond a)

theorem respond_effect {a : Response} (h : s.respond a = .next t) : MoveEffect s t (.respond a) := by
  obtain ⟨r, _, _, hc⟩ := respond_next h
  cases he : s.eng with
  | idle => simp [State.engineConsume, he] at hc
  | fr =>
    simp only [State.engineConsume, State.answered_eng, he] at hc
    exact .scan he (.trans (t := s.answered) ⟨rfl, .inl rfl⟩ (frRespond_frame hc))
  | d0 =>
    simp only [State.engineConsume, State.answered_eng, he] at hc
    exact .cycle he (.trans (t := s.answered) ⟨rfl, .inl rfl⟩ (d0Respond_frame hc))

theorem hostWrite_effect {a : RegAddr} {v : Word} (h : hostWrite a v s = .next t) :
    MoveEffect s t (.hostWrite a v) := by
  rcases hostWrite_cases h with ⟨rfl, h⟩ | ⟨rfl, rfl⟩ | ⟨rfl, rfl⟩ | ⟨_, _, _, rfl⟩
  · rcases writeCommand_cases h with ⟨i, hd, h⟩ | ⟨_, h⟩
    · rw [exec_eq_acceptCommand] at h
      rcases acceptCommand_next h with ⟨hb, ht⟩ | ⟨hb, ht⟩
      · exact .refused (.inl rfl) hb ht
      · exact .command i hd hb ht
    · rcases acceptCommand_next h with ⟨hb, ht⟩ | ⟨hb, ht⟩
      · exact .refused (.inl rfl) hb ht
      · exact .illegal hb ht
  · unfold State.writeConfig
    split
    · exact .refused (.inr (.inl rfl)) ‹_› rfl
    · exact .config rfl
  · unfold State.writeBudget
    split
    · exact .refused (.inr (.inr rfl)) ‹_› rfl
    · exact .budget rfl
  · exact .quiet rfl

theorem takeMove_effect {m : Move} (hm : m ≠ .reset) (h : takeMove m s = .next t) : MoveEffect s t m := by
  cases m with
  | hostWrite a v => exact hostWrite_effect h
  | hostRead a => cases h; exact .quiet rfl
  | hostBufRead sp i => cases h; exact .quiet rfl
  | respond a => exact respond_effect h
  | reset => exact absurd rfl hm

/-- Settles O27: each effect of a move is read off for every register, from the rule of the command or the frame of the
engine. -/
theorem registersHaveOnlyTheirWriters : Obligations.RegistersHaveOnlyTheirWriters := by
  intro s t m hm h
  rcases takeMove_effect hm h with ⟨ha, hb, rfl⟩ | ⟨i, hd, hb, rfl⟩ | ⟨hb, rfl⟩ | rfl | rfl | ht | ⟨he, hf⟩ | ⟨he, hf⟩
  case refused a v => simpa [hb] using fun _ => ha
  case command w =>
    have hw : ∀ {j}, i = j → WritesCommand (.hostWrite 0x00 w) j := fun e => ⟨w, rfl, e ▸ hd⟩
    have hwd : ∀ {f : Byte → Instr}, (∃ d, i = f d) → ∃ d, WritesCommand (.hostWrite 0x00 w) (f d) :=
      fun ⟨d, e⟩ => ⟨d, hw e⟩
    refine ⟨fun h => ?_, fun h => ?_, fun h => ?_, fun h => ?_, fun h => ?_, fun _ h => ?_, fun h => ?_, fun h => ?_,
      fun h => ?_, fun h => ?_, fun _ => ?_, fun h => ?_⟩
    · exact ((commandRule_crca i _).resolve_left h).imp hw hwd
    · exact ((commandRule_crcc i _).resolve_left h).imp hw hwd
    · exact .inr (((commandRule_lrc i _).resolve_left h).imp hw (.imp hw hwd))
    · exact absurd (commandRule_wakeEn i _) h
    · exact absurd (commandRule_budget i _) h
    · exact .inr (.inr (((commandRule_bufLen i _).resolve_left h).imp hw (.imp hw (.imp hw hwd))))
    · exact .inr (.inr (hwd ((commandRule_tbuf i _).resolve_left h)))
    · exact .inr (hw ((commandRule_failures i _).resolve_left fun ⟨e, e'⟩ => h.elim (· e) (· e')))
    · exact ((commandRule_class i _).resolve_left fun ⟨e, e'⟩ => h.elim (· e) (· e')).imp hw
        (.imp hw (.imp hw (.imp hw hwd)))
    · exact .inr (hw ((commandRule_handshake i _).resolve_left fun ⟨e1, e2, e3, e4⟩ =>
        h.elim (· e1) (·.elim (· e2) (·.elim (· e3) (· e4)))))
    · exact .inr ⟨hb, commandRule_rej i _, w, rfl⟩
    · obtain ⟨hup, hi⟩ := (commandRule_busy i (s.setRej false) hb).resolve_left fun e => h (e.trans hb.symm)
      exact .inl ⟨hup, hi.imp hw hw⟩
  case illegal w =>
    have hlen : s.PortInv → ((s.setRej false).raiseResult .illegalCmd).bufLen = s.bufLen := fun hp => by
      rw [State.raiseResult_of_idle _ (by simpa [hb] using hp.busy_iff)]
      rfl
    have hbusy := (s.setRej false).raiseResult_not_busy .illegalCmd hb
    simpa [hb, hbusy] using fun hp h => absurd (hlen hp) h
  case config => simp
  case budget => simp
  case quiet => rw [ht]; simp
  case scan a =>
    have hfr : AnswersEngine (.respond a) s .fr := ⟨⟨a, rfl⟩, he⟩
    have e := hf.same
    exact ⟨(absurd (congrArg State.crca e :) ·), (absurd (congrArg State.crcc e :) ·),
      (absurd (congrArg State.lrc e :) ·), (absurd (congrArg State.wakeEn e :) ·), (absurd (congrArg State.budget e :) ·),
      fun _ _ => .inl hfr, fun _ => .inl hfr, fun _ => .inl hfr,
      (Or.elim · (absurd (congrArg State.cls e :) ·) (absurd (congrArg State.chk e :) ·)),
      (Or.elim · (absurd (congrArg State.d0res e :) ·) (Or.elim · (absurd (congrArg State.bcc e :) ·)
        (Or.elim · (absurd (congrArg State.idLen e :) ·) (absurd (congrArg State.ibuf e :) ·)))),
      (absurd (congrArg (fun u : State => u.status.rej) e :) ·),
      fun h => .inr ⟨hf.busy.resolve_left h, .inl hfr⟩⟩
  case cycle a =>
    have hd0 : AnswersEngine (.respond a) s .d0 := ⟨⟨a, rfl⟩, he⟩
    have e := hf.same
    exact ⟨(absurd (congrArg State.crca e :) ·), (absurd (congrArg State.crcc e :) ·), fun _ => .inl hd0,
      (absurd (congrArg State.wakeEn e :) ·), (absurd (congrArg State.budget e :) ·), fun _ _ => .inr (.inl hd0),
      fun _ => .inr (.inl hd0),
      (Or.elim · (absurd (congrArg State.failCnt e :) ·) (absurd (congrArg (fun u : State => u.status.ovf) e :) ·)),
      (Or.elim · (absurd (congrArg State.cls e :) ·) (absurd (congrArg State.chk e :) ·)), fun _ => .inl hd0,
      (absurd (congrArg (fun u : State => u.status.rej) e :) ·),
      fun h => .inr ⟨hf.busy.resolve_left h, .inr hd0⟩⟩

end Sys2Proof.Machine
end

section

/-! The buffers at the host port: what a read delivers (O22), which bytes a command may write (O28), and the telegram
that pushed bytes form (O16). -/

namespace Sys2Proof.Machine

variable {s t : State}

/-! ### Reading a buffer -/

theorem State.hostBufRead_of_lt_len {sp : Space} {i : Word} (h : i.toNat < s.spaceLen sp) :
    s.hostBufRead sp i = { s with lastRead := some (.byte ((s.space sp).read i.toNat)) } := by
  simp [State.hostBufRead, State.readBuf, State.draws, h]

theorem State.hostBufRead_of_undefined {sp : Space} {i : Word} (hl : s.spaceLen sp ≤ i.toNat)
    (hc : i.toNat < s.spaceCap sp) :
    s.hostBufRead sp i =
      { s with lastRead := some (.byte (Config.freeByte s.drawCount)), drawCount := s.drawCount + 1 } := by
  simp [State.hostBufRead, State.readBuf, State.draws, hl, hc, not_lt.2 hl]

theorem State.hostBufRead_of_cap_le {sp : Space} {i : Word} (hl : s.spaceLen sp ≤ i.toNat)
    (hc : s.spaceCap sp ≤ i.toNat) : s.hostBufRead sp i = { s with lastRead := some (.byte 0x00) } := by
  simp [State.hostBufRead, State.readBuf, State.draws, not_lt.2 hl, not_lt.2 hc]

/-- Settles O22: the three ranges of an index, for the telegram buffer and for the identification buffer. -/
theorem bufferReadFollowsLengthAndCapacity : Obligations.BufferReadFollowsLengthAndCapacity := fun s _ =>
  ⟨fun h => congrArg _ (s.hostBufRead_of_lt_len (sp := .tbuf) h),
    fun hl hc => congrArg _ (s.hostBufRead_of_undefined (sp := .tbuf) hl hc),
    fun hl hc => congrArg _ (s.hostBufRead_of_cap_le (sp := .tbuf) hl hc),
    fun h => congrArg _ (s.hostBufRead_of_lt_len (sp := .ibuf) h),
    fun hl hc => congrArg _ (s.hostBufRead_of_undefined (sp := .ibuf) hl hc),
    fun hl hc => congrArg _ (s.hostBufRead_of_cap_le (sp := .ibuf) hl hc)⟩

/-! ### What commands and steps leave unchanged -/

theorem State.pushByte_read_ne (d : Byte) (s : State) {a : Nat} (ha : a ≠ s.bufLen.toNat) :
    (s.pushByte d).tbuf.read a = s.tbuf.read a := by
  unfold State.pushByte State.raiseResult
  split
  · split <;> rfl
  · exact Memory.read_write_ne ha s.tbuf d

theorem commandRule_ibuf (i : Instr) (s : State) : (commandRule i s).ibuf = s.ibuf := by
  cases i with
  | bufPush d => exact (congrArg State.ibuf (s.pushByte_outside d) :)
  | _ => rfl

theorem commandRule_cfg (i : Instr) (s : State) : (commandRule i s).cfg = s.cfg := by
  cases i with
  | bufPush d => exact (congrArg State.cfg (s.pushByte_outside d) :)
  | _ => rfl

theorem commandRule_tbuf_read (i : Instr) (s : State) {a : Nat}
    (ha : (∀ d, i ≠ .bufPush d) ∨ a ≠ s.bufLen.toNat) : (commandRule i s).tbuf.read a = s.tbuf.read a := by
  rcases commandRule_tbuf i s with h | ⟨d, rfl⟩
  · rw [h]
  · exact s.pushByte_read_ne d (ha.resolve_left fun hd => hd d rfl)

theorem MoveEffect.cfg_eq {m : Move} (h : MoveEffect s t m) : t.cfg = s.cfg := by
  cases h with
  | refused _ _ ht => rw [ht, State.setRej_cfg]
  | config ht | budget ht => rw [ht]
  | command i _ _ ht => rw [ht, commandRule_cfg]; rfl
  | illegal _ ht => rw [ht, State.raiseResult_cfg]; rfl
  | quiet ht => rw [ht]
  | scan _ hf => exact (congrArg State.cfg hf.same :)
  | cycle _ hf => exact (congrArg State.cfg hf.same :)

theorem takeMove_cfg {m : Move} (h : takeMove m s = .next t) : t.cfg = s.cfg := by
  by_cases hm : m = .reset
  · subst hm; cases h; rfl
  · exact (takeMove_effect hm h).cfg_eq

theorem step_cfg (h : step s = .next t) : t.cfg = s.cfg := by
  rcases step_cases h with ⟨_, rfl⟩ | ⟨m, rest, _, hm⟩
  · rfl
  · exact (takeMove_cfg hm :)

/-- Settles O28: a command that is refused writes no byte, an accepted one those of its rule; the parameters are outside
the effect of every move. -/
theorem commandsLeaveOtherBytesAndParameters : Obligations.CommandsLeaveOtherBytesAndParameters := by
  refine ⟨fun i s t h => ?_, fun s t => step_cfg⟩
  rw [exec_eq_acceptCommand] at h
  rcases acceptCommand_next h with ⟨_, rfl⟩ | ⟨_, rfl⟩
  · exact ⟨fun _ => rfl, fun _ _ => rfl⟩
  · exact ⟨fun a => by rw [commandRule_ibuf]; rfl, fun a ha => commandRule_tbuf_read i (s.setRej false) ha⟩

/-! ### Pushing bytes -/

theorem State.tbufFull_of_lt (h : s.bufLen.toNat < s.cfg.capacity) : s.tbufFull = false :=
  decide_eq_false h.ne

theorem exec_bufPush_of_room (hb : s.status.busy = false) (hf : s.tbufFull = false) (d : Byte) :
    exec (.bufPush d) s = .next ((s.accepted .ok).appendTbuf d).clearClass := by
  have hf' : (s.setRej false).tbufFull = false := hf
  rw [exec_eq_acceptCommand, acceptCommand_of_idle _ hb, commandRule, State.pushByte, hf']
  rfl

theorem State.BufferInv.appendTbuf (h : s.BufferInv) (hf : s.tbufFull = false) (b : Byte) :
    (s.appendTbuf b).BufferInv :=
  have hlt := h.bufLen_lt hf
  { h with
    bufLen_le := (h.appendTbuf_length hf b).trans_le hlt
    tbuf_wf := Memory.write_wf h.tbuf_wf _ _
    tbuf_inside := Memory.write_inside h.tbuf_inside hlt b }

theorem State.BufferInv.appendTbuf_telegram (h : s.BufferInv) (hf : s.tbufFull = false) (b : Byte) :
    (s.appendTbuf b).telegram = s.telegram ++ [b] := by
  rw [State.telegram, h.appendTbuf_length hf, State.appendTbuf_tbuf, Memory.firstBytes_append h.tbuf_wf, State.telegram]

/-- Settles O16, by induction on the pushed bytes: each push appends one byte and leaves the block ready for the next. -/
theorem pushedBytesFormTheTelegramInOrder : Obligations.PushedBytesFormTheTelegramInOrder := by
  intro s bs hs hb hfit
  induction bs generalizing s with
  | nil => exact ⟨s, rfl, (List.append_nil _).symm, rfl, rfl⟩
  | cons b bs ih =>
    rw [List.length_cons] at hfit
    have hf : s.tbufFull = false := s.tbufFull_of_lt (by omega)
    have hlen : (s.appendTbuf b).bufLen.toNat = s.bufLen.toNat + 1 := hs.appendTbuf_length hf b
    obtain ⟨t, hrun, htel, hn, hi⟩ := ih ((s.accepted .ok).appendTbuf b).clearClass
      { hs.appendTbuf hf b with } hb
      (by show (s.appendTbuf b).bufLen.toNat + bs.length ≤ s.cfg.capacity; omega)
    refine ⟨t, (execAll_cons (exec_bufPush_of_room hb hf b)).trans hrun, ?_, ?_, hi⟩
    · calc t.telegram = (s.appendTbuf b).telegram ++ bs := htel
        _ = s.telegram ++ b :: bs := by rw [hs.appendTbuf_telegram hf, List.append_assoc, List.singleton_append]
    · calc t.bufLen.toNat = (s.appendTbuf b).bufLen.toNat + bs.length := hn
        _ = s.bufLen.toNat + (b :: bs).length := by rw [hlen, List.length_cons]; omega

end Sys2Proof.Machine
end

section

/-! Command words: decoding and encoding agree both ways (O1), the listed words (O3), and an illegal word written to an
idle block (O2). -/

namespace Sys2Proof

/-! ### Decoding an encoded command -/

theorem zForm_of_ne {d : Byte} (h : d ≠ 0) (opc : Byte) (i : Instr) : zForm opc d i = .operandNotZero opc d := if_neg h

theorem zForm_eq_instr {opc d : Byte} {i j : Instr} (h : zForm opc d j = .instr i) : d = 0 ∧ j = i := by
  by_cases hd : d = 0
  · rw [zForm, if_pos hd] at h
    cases h
    exact ⟨hd, rfl⟩
  · rw [zForm_of_ne hd] at h
    cases h

theorem decodeCommand_encode (i : Instr) : decodeCommand (encode i) = .instr i := by
  cases i with
  | nop | crcaInit | crccInit | lrcInit | bufClear | classify | frScan | d0Cycle => rfl
  | crcaByte d | crccByte d | lrcByte d | bufPush d => simp [encode, decodeCommand]

/-! ### Reading a command back -/

theorem eq_commandWord {w : Word} {opc d : Byte} (ho : (opcode w).toNat = opc.toNat) (hd : imm8 w = d) :
    w = commandWord opc d := by
  rw [← BitVec.eq_of_toNat_eq ho, ← hd, commandWord_fields]

/-- In a Z row IMM8 is 0, in an I row it is the operand; with the row's opcode it makes up the word. -/
theorem eq_encode_of_decodeCommand {w : Word} {i : Instr} (h : decodeCommand w = .instr i) : w = encode i := by
  dsimp only [decodeCommand] at h
  split at h
  case h_1 ho | h_2 ho | h_4 ho | h_6 ho | h_8 ho | h_10 ho | h_11 ho | h_12 ho =>
    obtain ⟨hd, rfl⟩ := zForm_eq_instr h
    exact eq_commandWord ho hd
  case h_3 ho | h_5 ho | h_7 ho | h_9 ho =>
    cases h
    exact eq_commandWord ho rfl
  case h_13 => cases h

/-- Settles O1: the encoding of a command decodes to it, and a word that decodes to a command has its two fields. -/
theorem decodeGivesExactlyTheEncodedCommand : Obligations.DecodeGivesExactlyTheEncodedCommand := by
  intro w i
  constructor
  · exact eq_encode_of_decodeCommand
  · rintro rfl
    exact decodeCommand_encode i

/-- Settles O3: the decoder run on the twelve words. -/
theorem listedWordsDecodeToTheirCommands : Obligations.ListedWordsDecodeToTheirCommands := by
  unfold Obligations.ListedWordsDecodeToTheirCommands
  decide

end Sys2Proof

namespace Sys2Proof.Machine

/-! ### Illegal words -/

theorem decodeCommand_of_reserved {w : Word} (h : 0x0C ≤ opcode w) : decodeCommand w = .reservedOpcode (opcode w) := by
  have hn : 12 ≤ (opcode w).toNat := BitVec.le_def.1 h
  dsimp only [decodeCommand]
  split
  case h_13 => rfl
  all_goals omega

theorem decodeCommand_of_operand {w : Word} (h : opcode w ∈ zOpcodes) (hd : imm8 w ≠ 0) :
    decodeCommand w = .operandNotZero (opcode w) (imm8 w) := by
  simp only [zOpcodes, List.mem_cons, List.not_mem_nil, or_false] at h
  rcases h with h | h | h | h | h | h | h | h <;>
    rw [decodeCommand, h] <;> exact zForm_of_ne hd _ _

theorem illegalCommand_of_idle {s : State} (hb : s.status.busy = false) (he : s.eng = .idle) :
    illegalCommand s = .next (s.accepted .illegalCmd) := by
  have he' : (s.setRej false).eng = .idle := he
  rw [illegalCommand, acceptCommand_of_idle _ hb, State.raiseResult_of_idle _ he']
  rfl

/-- Settles O2: neither kind of illegal word decodes to a command, and both are reported in the same way. -/
theorem illegalWordOnlyReportsIllegalCmd : Obligations.IllegalWordOnlyReportsIllegalCmd := by
  intro w s hb he hw
  have hill : writeCommand w s = illegalCommand s := by
    rcases hw with hr | ⟨hz, hd⟩
    · rw [writeCommand, decodeCommand_of_reserved hr]
    · rw [writeCommand, decodeCommand_of_operand hz hd]
  exact hill.trans (illegalCommand_of_idle hb he)

end Sys2Proof.Machine
end

section

/-! The assembler: what each statement assembles to, and how a run leaves the loop of `wait.idle` (O56). -/

namespace Sys2Proof.Machine

/-! ### Statements -/

theorem assemble_of_wellFormed {st : Statement} (h : st.wellFormed = true) : assemble st = some (statementActs st) :=
  if_pos h

theorem assemble_of_not_wellFormed {st : Statement} (h : st.wellFormed = false) : assemble st = none := by
  simp [assemble, h]

@[simp] theorem asByte_toNat (d : Byte) : asByte d.toNat = d := by simp [asByte]

@[simp] theorem asWord_toNat (w : Word) : asWord w.toNat = w := by simp [asWord]

theorem fitsByte_toNat (d : Byte) : fitsByte d.toNat = true := decide_eq_true (Nat.le_of_lt_succ d.isLt)

theorem fitsWord_toNat (w : Word) : fitsWord w.toNat = true := decide_eq_true (Nat.le_of_lt_succ w.isLt)

theorem fitsByte_of_gt {n : Nat} (h : 255 < n) : fitsByte n = false := decide_eq_false (not_le.2 h)

theorem all_fitsByte_toNat (bs : List Byte) : (bs.map BitVec.toNat).all fitsByte = true := by
  simp [fitsByte_toNat]

theorem bytesActs_toNat (f : Byte → Instr) (bs : List Byte) :
    bytesActs f (bs.map BitVec.toNat) = bs.map fun b => cmdAct (encode (f b)) := by
  simp [bytesActs]

/-- A statement with one byte operand is one write of its command's word. -/
theorem assemble_byteCommand {st : Statement} {f : Byte → Instr} {d : Byte} (hw : st.wellFormed = fitsByte d.toNat)
    (ha : statementActs st = [cmdAct (encode (f (asByte d.toNat)))]) : assemble st = some [cmdAct (encode (f d))] := by
  rw [assemble_of_wellFormed (hw.trans (fitsByte_toNat d)), ha, asByte_toNat]

/-- A statement with one 16-bit operand is one move with that operand. -/
theorem assemble_wordMove {st : Statement} {f : Word → Move} {w : Word} (hw : st.wellFormed = fitsWord w.toNat)
    (ha : statementActs st = [.move (f (asWord w.toNat))]) : assemble st = some [.move (f w)] := by
  rw [assemble_of_wellFormed (hw.trans (fitsWord_toNat w)), ha, asWord_toNat]

/-- A statement with a string is the statement's opening acts and then one command a byte. -/
theorem assemble_string {st : Statement} {f : Byte → Instr} {bs : List Byte} (acts : List HostAct)
    (hw : st.wellFormed = (bs.map BitVec.toNat).all fitsByte)
    (ha : statementActs st = acts ++ bytesActs f (bs.map BitVec.toNat)) :
    assemble st = some (acts ++ bs.map fun b => cmdAct (encode (f b))) := by
  rw [assemble_of_wellFormed (hw.trans (all_fitsByte_toNat bs)), ha, bytesActs_toNat]

/-! ### The loop of `wait.idle` -/

theorem HostRun.turn_readUntilIdle (s : State) (rest : List HostAct) :
    HostRun.turn ⟨.readUntilIdle :: rest, s⟩ .host =
      .next ⟨if s.status.busy then .readUntilIdle :: rest else rest, s.hostRead 0x01⟩ := by
  show leaving (if HostAct.readUntilIdle.again s then .readUntilIdle :: rest else rest) (.next (s.hostRead 0x01)) = _
  rw [HostAct.again_readUntilIdle, leaving]

theorem HostRun.turns_cons_of_next {k : Turn} {r p : HostRun} (h : r.turn k = .next p) (ks : List Turn) :
    HostRun.turns (k :: ks) r = HostRun.turns ks p := by
  rw [HostRun.turns, h]

/-- One turn leaves the loop only by a STATUS read of an idle block. -/
theorem HostRun.turn_in_loop {k : Turn} {s : State} {rest : List HostAct} {p : HostRun}
    (h : HostRun.turn ⟨.readUntilIdle :: rest, s⟩ k = .next p) :
    p.acts = .readUntilIdle :: rest ∨ (k = .host ∧ s.status.busy = false ∧ p = ⟨rest, s.hostRead 0x01⟩) := by
  rcases HostRun.turn_next h with ⟨_, hnil, _⟩ | ⟨_, _, rfl, _, _, _⟩ | ⟨_, _, _, hacts⟩ | ⟨_, _, hacts⟩
  · cases hnil
  · rw [HostRun.turn_readUntilIdle] at h
    cases h
    cases hb : s.status.busy
    · exact .inr ⟨rfl, rfl, rfl⟩
    · exact .inl rfl
  · exact .inl hacts
  · exact .inl hacts

/-- A run that has left the loop did so at one STATUS read of an idle block: by induction on the turns, at the first turn
that leaves it. -/
theorem HostRun.turns_in_loop (ks : List Turn) (s : State) (rest : List HostAct) (q : HostRun)
    (h : HostRun.turns ks ⟨.readUntilIdle :: rest, s⟩ = .next q) :
    q.acts = .readUntilIdle :: rest ∨
      ∃ before after u, ks = before ++ .host :: after ∧ u.status.busy = false ∧
        HostRun.turns before ⟨.readUntilIdle :: rest, s⟩ = .next ⟨.readUntilIdle :: rest, u⟩ ∧
        HostRun.turns after ⟨rest, u.hostRead 0x01⟩ = .next q := by
  induction ks generalizing s with
  | nil => cases h; exact .inl rfl
  | cons k ks ih =>
    obtain ⟨p, hk, hks⟩ := HostRun.turns_cons h
    rcases HostRun.turn_in_loop hk with hacts | ⟨rfl, hb, rfl⟩
    · obtain ⟨_, t⟩ := p
      cases hacts
      rcases ih t hks with hq | ⟨before, after, u, rfl, hb, hbefore, hafter⟩
      · exact .inl hq
      · exact .inr ⟨k :: before, after, u, rfl, hb, (HostRun.turns_cons_of_next hk before).trans hbefore, hafter⟩
    · exact .inr ⟨[], ks, s, rfl, hb, rfl, hks⟩

/-- Settles O56: a statement without a number and a register's address are read off the tables, the others need their
number to fit, and `wait.idle` is the loop above. -/
theorem assemblerStatementsAreTheirMoves : Obligations.AssemblerStatementsAreTheirMoves := by
  refine ⟨rfl, rfl, rfl, rfl, rfl, rfl, rfl, rfl, fun d => ?bytes, fun n hn => ?overflow, fun w => ?words, fun _ => rfl,
    rfl, rfl, fun s t m rest hm => ?move, HostRun.turn_readUntilIdle, HostRun.turns_in_loop, fun bs => ?strings⟩
  case bytes =>
    exact ⟨assemble_byteCommand (f := .crcaByte) rfl rfl, assemble_byteCommand (f := .crccByte) rfl rfl,
      assemble_byteCommand (f := .lrcByte) rfl rfl, assemble_byteCommand (f := .bufPush) rfl rfl⟩
  case overflow =>
    have hf : fitsByte n = false := fitsByte_of_gt hn
    exact ⟨assemble_of_not_wellFormed hf, assemble_of_not_wellFormed hf, assemble_of_not_wellFormed hf,
      assemble_of_not_wellFormed hf⟩
  case words =>
    exact ⟨assemble_wordMove (f := .hostWrite 0x00) rfl rfl,
      fun r => assemble_wordMove (f := .hostWrite (regAddr r)) rfl rfl,
      assemble_wordMove (f := .hostBufRead .tbuf) rfl rfl, assemble_wordMove (f := .hostBufRead .ibuf) rfl rfl⟩
  case move => exact congrArg (leaving rest) hm
  case strings =>
    exact ⟨assemble_string (f := .crcaByte) [] rfl rfl, assemble_string (f := .crccByte) [] rfl rfl,
      assemble_string (f := .lrcByte) [] rfl rfl, assemble_string (f := .bufPush) [] rfl rfl,
      assemble_string (f := .crcaByte) [cmdAct (encode .crcaInit)] rfl rfl,
      assemble_string (f := .crccByte) [cmdAct (encode .crccInit)] rfl rfl,
      assemble_string (f := .bufPush) [cmdAct (encode .bufClear)] rfl rfl⟩

end Sys2Proof.Machine
end

section

/-! The checksum unit: what an accepted command does, and the initialisations (O7), the byte commands and their folds
(O8 to O10). -/

namespace Sys2Proof.Machine

variable {s : State}

/-! ### Accepted and refused command words -/

theorem operandRefused {opc : Byte} (h : opc ∈ zOpcodes) : OperandRefused opc := fun d s hd hb he =>
  illegalWordOnlyReportsIllegalCmd _ s hb he
    (.inr ⟨(opcode_commandWord opc d).symm ▸ h, (imm8_commandWord opc d).symm ▸ hd⟩)

theorem exec_of_idle (i : Instr) (hb : s.status.busy = false) : exec i s = .next (commandRule i (s.setRej false)) := by
  rw [exec_eq_acceptCommand, acceptCommand_of_idle _ hb]

/-! ### Reading LRCRES -/

theorem State.readReg_lrcRes {a : Byte} (h : s.lrc = a) : s.readReg 0x07 = zext16 (lrcFinish a) := by
  subst h; rfl

/-! ### Initialisation -/

/-- Settles O7: each rule run once on the accepted state; CRCA_INIT run on its own result finds nothing to change. -/
theorem initCommandsSetTheirAccumulators : Obligations.InitCommandsSetTheirAccumulators := by
  refine ⟨decodeCommand_encode .crcaInit, decodeCommand_encode .crccInit, decodeCommand_encode .lrcInit,
    operandRefused (by decide), operandRefused (by decide), operandRefused (by decide), fun s hb => ?_⟩
  have hA : exec .crcaInit s = .next { s.accepted .ok with crca := 0x0000 } := exec_of_idle _ hb
  have hC : exec .crccInit s = .next { s.accepted .ok with crcc := 0xFFFF } := exec_of_idle _ hb
  have hL : exec .lrcInit s = .next { s.accepted .ok with lrc := 0xFF } := exec_of_idle _ hb
  have hAA : execAll [.crcaInit, .crcaInit] s = .next { s.accepted .ok with crca := 0x0000 } :=
    (execAll_cons hA).trans (execAll_cons (exec_of_idle _ hb))
  refine ⟨hA, hAA.trans hA.symm, hC, fun t ht => ?crcc, hL, fun t ht => ?lrc⟩
  case crcc =>
    rw [hC] at ht
    cases ht
    refine ⟨rfl, fun hx => ?_⟩
    show 0xFFFF ^^^ s.cfg.ccittXorout = 0xFFFF
    rw [hx]
    rfl
  case lrc =>
    rw [hL] at ht
    cases ht
    exact ⟨rfl, State.readReg_lrcRes (a := 0xFF) rfl⟩

/-! ### Bytes fed one command at a time -/

/-- Where each command folds its byte into the part of the state that `put` shows, a run of them folds all the bytes. -/
theorem execAll_map_eq_foldl {α : Type} {f : Byte → Instr} {g : α → Byte → α} {put : α → State}
    (h : ∀ a d, exec (f d) (put a) = .next (put (g a d))) (bs : List Byte) (a : α) :
    execAll (bs.map f) (put a) = .next (put (bs.foldl g a)) := by
  induction bs generalizing a with
  | nil => rfl
  | cons b bs ih => exact (execAll_cons (h a b)).trans (ih (g a b))

theorem crcShifts_eq_iterate (poly : Word) (n : Nat) (c : Word) : crcShifts poly n c = (crcShift poly)^[n] c := by
  induction n generalizing c with
  | zero => rfl
  | succ n ih => exact ih (crcShift poly c)

theorem execAll_crcaInit_crcaByte (hb : s.status.busy = false) (bs : List Byte) :
    execAll (.crcaInit :: bs.map .crcaByte) s = .next { s.accepted .ok with crca := crcA bs } :=
  (execAll_cons (exec_of_idle .crcaInit hb)).trans
    (execAll_map_eq_foldl (put := fun a => { s.accepted .ok with crca := a })
      (fun _ d => exec_of_idle (.crcaByte d) hb) bs initA)

theorem execAll_crccInit_crccByte (hb : s.status.busy = false) (bs : List Byte) :
    execAll (.crccInit :: bs.map .crccByte) s = .next { s.accepted .ok with crcc := bs.foldl crcCStep initC } :=
  (execAll_cons (exec_of_idle .crccInit hb)).trans
    (execAll_map_eq_foldl (put := fun a => { s.accepted .ok with crcc := a })
      (fun _ d => exec_of_idle (.crccByte d) hb) bs initC)

theorem execAll_lrcInit_lrcByte (hb : s.status.busy = false) (bs : List Byte) :
    execAll (.lrcInit :: bs.map .lrcByte) s = .next { s.accepted .ok with lrc := bs.foldl lrcStep lrcSeed } :=
  (execAll_cons (exec_of_idle .lrcInit hb)).trans
    (execAll_map_eq_foldl (put := fun a => { s.accepted .ok with lrc := a })
      (fun _ d => exec_of_idle (.lrcByte d) hb) bs lrcSeed)

/-- Settles O8: the byte step is the iterated shift, and a run of CRCA_BYTE is the fold of it. The accumulator 0x0001
with the byte 0x01 is the one of the corner case that is not 0. -/
theorem crcaByteFeedsTheByte : Obligations.CrcaByteFeedsTheByte :=
  ⟨fun _ _ => crcShifts_eq_iterate _ _ _, fun d => decodeCommand_encode (.crcaByte d),
    fun d _ hb => exec_of_idle (.crcaByte d) hb, by decide, ⟨0x0001, 0x01, by decide⟩, by decide, by decide,
    fun bs _ hb => ⟨rfl, execAll_crcaInit_crcaByte hb bs⟩⟩

/-- Settles O9: as O8, and the read at 0x05 applies the final XOR to the stored fold. -/
theorem crccByteFeedsTheByte : Obligations.CrccByteFeedsTheByte :=
  ⟨fun _ _ => crcShifts_eq_iterate _ _ _, fun d => decodeCommand_encode (.crccByte d),
    fun d _ hb => exec_of_idle (.crccByte d) hb, by decide, by decide,
    fun bs _ hb => ⟨_, execAll_crccInit_crccByte hb bs, rfl, rfl⟩⟩

theorem lrcStep_zero (a : Byte) : lrcStep a 0x00 = a := BitVec.xor_zero

theorem lrcStep_lrcStep_same (a d : Byte) : lrcStep (lrcStep a d) d = a := by
  rw [lrcStep, lrcStep, BitVec.xor_assoc, BitVec.xor_self, BitVec.xor_zero]

/-- Settles O10: one step XORs the byte, two cancel, and a run is the fold that LRCRES reads finished. -/
theorem lrcByteXorsTheByte : Obligations.LrcByteXorsTheByte := by
  refine ⟨fun d => decodeCommand_encode (.lrcByte d), fun d s hb => ⟨exec_of_idle (.lrcByte d) hb, fun t ht => ?twice⟩,
    fun s t ht => ?zero, fun bs s hb => ⟨_, execAll_lrcInit_lrcByte hb bs, rfl⟩,
    fun s hb => ⟨_, execAll_lrcInit_lrcByte hb _, rfl, State.readReg_lrcRes (a := 0x9E) rfl⟩⟩
  case twice =>
    have hrun : execAll [.lrcByte d, .lrcByte d] s =
        .next { s.accepted .ok with lrc := lrcStep (lrcStep s.lrc d) d } :=
      (execAll_cons (exec_of_idle _ hb)).trans (execAll_cons (exec_of_idle _ hb))
    cases ht.symm.trans hrun
    exact lrcStep_lrcStep_same s.lrc d
  case zero =>
    rw [exec_eq_acceptCommand] at ht
    rcases acceptCommand_next ht with ⟨_, rfl⟩ | ⟨_, rfl⟩
    · rfl
    · exact lrcStep_zero s.lrc

end Sys2Proof.Machine
end

section

/-! The checksums as functions of the byte sequence: the LRC is the plain XOR (O11), and a changed byte changes both
checksums (O12). -/

namespace Sys2Proof.Machine

open Function (Injective)

/-! ### The LRC's seed and final XOR -/

theorem lrcFinish_injective : Injective lrcFinish := fun _ _ h => (BitVec.xor_left_inj _).1 h

/-- Settles O11: XOR is associative, so the seed comes out of the fold, where the final XOR meets it. -/
theorem lrcIsThePlainXorOfTheBytes : Obligations.LrcIsThePlainXorOfTheBytes := by
  refine ⟨fun s => ?_, rfl⟩
  have hseed : s.foldl lrcStep lrcSeed = lrcSeed ^^^ s.foldl (fun a b => a ^^^ b) 0x00 :=
    List.foldl_assoc (op := fun a b : Byte => a ^^^ b) (a₁ := lrcSeed) (a₂ := 0x00)
  calc lrcOf s = (lrcSeed ^^^ s.foldl (fun a b => a ^^^ b) 0x00) ^^^ lrcSeed := by rw [lrcOf, hseed]; rfl
    _ = s.foldl (fun a b => a ^^^ b) 0x00 := by
      rw [BitVec.xor_comm, ← BitVec.xor_assoc, BitVec.xor_self, BitVec.zero_xor]

/-! ### A changed byte -/

/-- A fold whose step loses neither the accumulator nor the byte tells two sequences apart that differ in one byte. -/
theorem foldl_ne_of_changed {α : Type} {g : α → Byte → α} (hacc : ∀ d, Injective fun a => g a d)
    (hbyte : ∀ a, Injective (g a)) (a : α) (before after : List Byte) {b b' : Byte} (hne : b ≠ b') :
    (before ++ b :: after).foldl g a ≠ (before ++ b' :: after).foldl g a := by
  have hfold (l : List Byte) : Injective fun a => l.foldl g a := by
    induction l with
    | nil => exact fun _ _ h => h
    | cons d l ih => exact ih.comp (hacc d)
  rw [List.foldl_append, List.foldl_append]
  exact fun h => hne (hbyte _ (hfold after h))

/-- With the polynomial's top bit set, the result's top bit tells which branch was taken, so the shift can be undone. -/
theorem crcShift_injective {poly : Word} (hp : poly.getLsbD 15 = true) : Injective (crcShift poly) := by
  have htop (c : Word) : (crcShift poly c).getLsbD 15 = c.getLsbD 0 := by
    unfold crcShift
    split <;> simp_all
  intro c c' h
  have h0 : c.getLsbD 0 = c'.getLsbD 0 := by rw [← htop c, ← htop c', h]
  have hshift : c >>> 1 = c' >>> 1 := by
    unfold crcShift at h
    rw [h0] at h
    split at h
    · exact (BitVec.xor_left_inj _).1 h
    · exact h
  apply BitVec.eq_of_getLsbD_eq
  intro i hi
  cases i with
  | zero => exact h0
  | succ i => simpa [Nat.add_comm] using congrArg (fun w : Word => w.getLsbD i) hshift

theorem crcShifts_injective {poly : Word} (hp : poly.getLsbD 15 = true) (n : Nat) : Injective (crcShifts poly n) := by
  have he : crcShifts poly n = (crcShift poly)^[n] := funext (crcShifts_eq_iterate poly n)
  exact he ▸ (crcShift_injective hp).iterate n

theorem operand16_injective : Injective operand16 := fun d d' h => by
  simpa [operand16] using congrArg (BitVec.setWidth 8) h

theorem crcByteStep_injective_acc {poly : Word} (hp : poly.getLsbD 15 = true) (d : Byte) :
    Injective fun c => crcByteStep poly c d := fun _ _ h => (BitVec.xor_left_inj _).1 (crcShifts_injective hp 8 h)

theorem crcByteStep_injective_byte {poly : Word} (hp : poly.getLsbD 15 = true) (c : Word) :
    Injective (crcByteStep poly c) := fun _ _ h =>
  operand16_injective ((BitVec.xor_right_inj _).1 (crcShifts_injective hp 8 h))

/-- Settles O12: the steps of both folds are injective in the accumulator and in the byte. -/
theorem anyChangedByteChangesTheChecksums : Obligations.AnyChangedByteChangesTheChecksums := by
  intro before after b b' hne
  have hp : polyA.getLsbD 15 = true := rfl
  have hlrc := foldl_ne_of_changed (g := lrcStep) (fun _ _ _ h => (BitVec.xor_left_inj _).1 h)
    (fun _ _ _ h => (BitVec.xor_right_inj _).1 h) lrcSeed before after hne
  exact ⟨foldl_ne_of_changed (crcByteStep_injective_acc hp) (crcByteStep_injective_byte hp) initA before after hne,
    fun h => hlrc (lrcFinish_injective h)⟩

end Sys2Proof.Machine
end

section

/-! The tail classifier: which tail a telegram has, and what CLASSIFY reports for it (O13). -/

namespace Sys2Proof.Machine

variable {s : State} {t : List Byte}

/-! ### Hex digits and tails -/

theorem isHex_iff (b : Byte) : isHex b = true ↔
    (0x30 ≤ b.toNat ∧ b.toNat ≤ 0x39) ∨ (0x41 ≤ b.toNat ∧ b.toNat ≤ 0x46) ∨ (0x61 ≤ b.toNat ∧ b.toNat ≤ 0x66) := by
  simp [isHex, BitVec.le_def, or_assoc]

theorem hasOldTail_iff (t : List Byte) : hasOldTail t = true ↔
    3 ≤ t.length ∧ fromEnd t 3 = chBang ∧ fromEnd t 2 = chCR ∧ fromEnd t 1 = chLF := by
  simp [hasOldTail, and_assoc]

theorem hasNewTail_iff (t : List Byte) : hasNewTail t = true ↔
    7 ≤ t.length ∧ fromEnd t 7 = chBang ∧ isHex (fromEnd t 6) = true ∧ isHex (fromEnd t 5) = true ∧
      isHex (fromEnd t 4) = true ∧ isHex (fromEnd t 3) = true ∧ fromEnd t 2 = chCR ∧ fromEnd t 1 = chLF := by
  simp [hasNewTail, and_assoc]

/-- A `!` is no hex digit, and the byte three before the end would be both (spec/40_checksum.md R412 a). -/
theorem not_hasNewTail_of_hasOldTail (h : hasOldTail t = true) : ¬hasNewTail t = true := by
  intro hn
  obtain ⟨-, hbang, -, -⟩ := (hasOldTail_iff t).1 h
  obtain ⟨-, -, -, -, -, hhex, -, -⟩ := (hasNewTail_iff t).1 hn
  rw [hbang] at hhex
  exact absurd hhex (by decide)

theorem classifyTail_of_old (h : hasOldTail t = true) : classifyTail t = (.old, 0x0000) := if_pos h

theorem classifyTail_of_new (h : hasNewTail t = true) :
    classifyTail t = (.new, crcA (t.take (t.length - 6))) := by
  rw [classifyTail, if_neg fun ho => not_hasNewTail_of_hasOldTail ho h, if_pos h]

theorem classifyTail_of_neither (ho : ¬hasOldTail t = true) (hn : ¬hasNewTail t = true) :
    classifyTail t = (.malformed, 0x0000) := by
  rw [classifyTail, if_neg ho, if_neg hn]

/-! ### The tail of the telegram buffer -/

theorem State.fromEnd_telegram (s : State) {k : Nat} (hk : 0 < k) (hn : k ≤ s.bufLen.toNat) :
    fromEnd s.telegram k = s.tbuf.read (s.bufLen.toNat - k) := by
  rw [fromEnd, State.telegram, Memory.firstBytes_length, Memory.firstBytes_getD (by omega)]

theorem State.telegram_length (s : State) : s.telegram.length = s.bufLen.toNat := Memory.firstBytes_length _ _

theorem State.telegram_take (s : State) (k : Nat) :
    s.telegram.take (s.telegram.length - k) = (List.range (s.bufLen.toNat - k)).map s.tbuf.read := by
  rw [s.telegram_length, State.telegram, Memory.firstBytes, ← List.map_take, List.take_range,
    Nat.min_eq_left (Nat.sub_le _ _)]

theorem State.hasOldTail_telegram_iff (s : State) : hasOldTail s.telegram = true ↔
    3 ≤ s.bufLen.toNat ∧ s.tbuf.read (s.bufLen.toNat - 3) = chBang ∧ s.tbuf.read (s.bufLen.toNat - 2) = chCR ∧
      s.tbuf.read (s.bufLen.toNat - 1) = chLF := by
  rw [hasOldTail_iff, s.telegram_length]
  refine and_congr_right fun hn => ?_
  simp (disch := omega) only [s.fromEnd_telegram]

theorem State.hasNewTail_telegram_iff (s : State) : hasNewTail s.telegram = true ↔
    7 ≤ s.bufLen.toNat ∧ s.tbuf.read (s.bufLen.toNat - 7) = chBang ∧
      isHex (s.tbuf.read (s.bufLen.toNat - 6)) = true ∧ isHex (s.tbuf.read (s.bufLen.toNat - 5)) = true ∧
      isHex (s.tbuf.read (s.bufLen.toNat - 4)) = true ∧ isHex (s.tbuf.read (s.bufLen.toNat - 3)) = true ∧
      s.tbuf.read (s.bufLen.toNat - 2) = chCR ∧ s.tbuf.read (s.bufLen.toNat - 1) = chLF := by
  rw [hasNewTail_iff, s.telegram_length]
  refine and_congr_right fun hn => ?_
  simp (disch := omega) only [s.fromEnd_telegram]

theorem exec_classify_of_idle (hb : s.status.busy = false) {c : TailClass} {w : Word}
    (h : classifyTail s.telegram = (c, w)) :
    exec .classify s = .next { s.accepted .ok with cls := c, chk := w } := by
  have hr : exec .classify s = .next
      { s.accepted .ok with cls := (classifyTail s.telegram).1, chk := (classifyTail s.telegram).2 } :=
    exec_of_idle .classify hb
  rw [hr, h]

/-- Settles O13: the statement's two tails are `hasOldTail` and `hasNewTail` of the telegram, and CLASSIFY reports
`classifyTail`. -/
theorem classifyReportsTheTail : Obligations.ClassifyReportsTheTail := by
  refine ⟨decodeCommand_encode .classify, operandRefused (by decide), by decide +kernel, isHex_iff, ?_⟩
  rintro s _ hb rfl b old new
  have hold : old ↔ hasOldTail s.telegram = true := s.hasOldTail_telegram_iff.symm
  have hnew : new ↔ hasNewTail s.telegram = true := s.hasNewTail_telegram_iff.symm
  refine ⟨fun ho => exec_classify_of_idle hb (classifyTail_of_old (hold.1 ho)), fun hn => ?new,
    fun ho hn => exec_classify_of_idle hb (classifyTail_of_neither (mt hold.2 ho) (mt hnew.2 hn)),
    fun ⟨ho, hn⟩ => not_hasNewTail_of_hasOldTail (hold.1 ho) (hnew.1 hn)⟩
  rw [← s.telegram_take 6]
  exact exec_classify_of_idle hb (classifyTail_of_new (hnew.1 hn))

end Sys2Proof.Machine
end

section

/-! The host's writes: which command a step runs (O4), what a busy block does with a write (O17), the CONFIG and BUDGET
writes (O18), NOP (O6) and the buffer commands (O14, O15). -/

namespace Sys2Proof.Machine

variable {s : State} {w : Word} {i : Instr}

/-! ### The command a step runs -/

theorem writeCommand_of_decodes (hd : decodeCommand w = .instr i) (s : State) : writeCommand w s = exec i s := by
  rw [writeCommand, hd]

/-- Settles O4: the step takes the first move, and the word decodes to the command. -/
theorem stepRunsTheWrittenCommand : Obligations.StepRunsTheWrittenCommand := fun s rest w i hin hd =>
  calc step s = writeCommand w { s with inbox := rest } := stepTakesTheNextMove.1 s rest (.hostWrite 0x00 w) hin
    _ = exec i { s with inbox := rest } := writeCommand_of_decodes hd _

/-! ### Writes to a busy block -/

theorem exec_of_busy (i : Instr) (hb : s.status.busy = true) : exec i s = .next s.refuse := by
  rw [exec_eq_acceptCommand, acceptCommand_of_busy _ hb, State.refuse]

/-- Legal or not, a command word is refused by a busy block (spec/60_exceptions.md R705 a). -/
theorem writeCommand_of_busy (w : Word) (hb : s.status.busy = true) : writeCommand w s = .next s.refuse := by
  unfold writeCommand
  split
  · exact exec_of_busy _ hb
  · exact acceptCommand_of_busy _ hb
  · exact acceptCommand_of_busy _ hb

theorem State.writeConfig_of_busy (v : Word) (hb : s.status.busy = true) : s.writeConfig v = s.refuse := if_pos hb

theorem State.writeBudget_of_busy (v : Word) (hb : s.status.busy = true) : s.writeBudget v = s.refuse := if_pos hb

/-- Settles O17: each of the three writable addresses refuses a write while BUSY = 1. -/
theorem busyWritesOnlySetRej : Obligations.BusyWritesOnlySetRej := by
  refine fun s hb => ⟨fun i => exec_of_busy i hb, fun a v ha => ?_⟩
  rcases ha with rfl | rfl | rfl
  · exact writeCommand_of_busy v hb
  · exact congrArg Host.Outcome.next (State.writeConfig_of_busy v hb)
  · exact congrArg Host.Outcome.next (State.writeBudget_of_busy v hb)

/-! ### CONFIG and BUDGET writes to an idle block -/

theorem State.writeConfig_of_idle (v : Word) (hb : s.status.busy = false) :
    s.writeConfig v = { s with wakeEn := v.getLsbD 0 } := by
  rw [State.writeConfig, hb]
  rfl

theorem State.writeBudget_of_idle (v : Word) (hb : s.status.busy = false) :
    s.writeBudget v = { s with budget := v } := by
  rw [State.writeBudget, hb]
  rfl

/-- CONFIG keeps bit 0 of a written value; the others read 0 (spec/10_state.md R105). -/
theorem configWord_getLsbD_zero (v : Word) : configWord (v.getLsbD 0) = v &&& 0x0001 := by
  apply BitVec.eq_of_getLsbD_eq
  intro k _
  rw [configWord, getLsbD_flagBit _ (by decide), BitVec.getLsbD_and]
  cases k with
  | zero => simp
  | succ k => simp

/-- Settles O18: the writes store, and the reads deliver the stored field. -/
theorem configAndBudgetWritesStore : Obligations.ConfigAndBudgetWritesStore := fun _ v hb =>
  ⟨congrArg Host.Outcome.next (State.writeConfig_of_idle v hb), configWord_getLsbD_zero v,
    congrArg Host.Outcome.next (State.writeBudget_of_idle v hb), rfl⟩

/-! ### NOP and BUF_CLEAR -/

theorem exec_nop_of_idle (hb : s.status.busy = false) : exec .nop s = .next (s.accepted .ok) := exec_of_idle .nop hb

/-- Settles O6: the rule of NOP only completes; the two STATUS values are read off the fields before and after. -/
theorem nopOnlyClearsRejAndSetsOk : Obligations.NopOnlyClearsRejAndSetsOk := by
  refine ⟨decodeCommand_encode .nop, fun s => exec_nop_of_idle, operandRefused (by decide), fun s hs => ?_⟩
  have hb : s.status.busy = false := by rw [hs]
  have hafter : (s.accepted .ok).status = { busy := false, rej := false, ovf := false, res := .ok } := by
    rw [State.accepted, hs]
  refine ⟨?_, s.accepted .ok, exec_nop_of_idle hb, ?_⟩
  · rw [hs]; rfl
  · rw [hafter]; rfl

/-- Settles O14: the rule of BUF_CLEAR run once on the accepted state. -/
theorem bufClearEmptiesTheBuffer : Obligations.BufClearEmptiesTheBuffer :=
  ⟨decodeCommand_encode .bufClear, fun _ hb => exec_of_idle .bufClear hb, operandRefused (by decide)⟩

/-! ### BUF_PUSH -/

theorem exec_bufPush_of_full (hb : s.status.busy = false) (he : s.eng = .idle) (hf : s.bufLen.toNat = s.cfg.capacity)
    (d : Byte) : exec (.bufPush d) s = .next (s.accepted .bufferOverflow) := by
  have hf' : (s.setRej false).tbufFull = true := (s.setRej false).tbufFull_iff.2 hf
  have he' : (s.setRej false).eng = .idle := he
  rw [exec_of_idle _ hb, commandRule, State.pushByte, if_pos hf', State.raiseResult_of_idle _ he']
  rfl

/-- A run of pushes that all fit leaves what one push leaves, with BUFLEN raised once for each. -/
theorem execAll_bufPush_of_room (d : Byte) (n : Nat) (hb : s.status.busy = false)
    (hfit : s.bufLen.toNat + n < s.cfg.capacity) :
    ∃ m, execAll (List.replicate (n + 1) (.bufPush d)) s = .next
      { s.accepted .ok with
        tbuf := m, bufLen := s.bufLen + BitVec.ofNat 16 (n + 1), cls := .none, chk := 0x0000 } := by
  induction n generalizing s with
  | zero => exact ⟨_, execAll_cons (exec_bufPush_of_room hb (s.tbufFull_of_lt hfit) d)⟩
  | succ n ih =>
    have hlen : (s.bufLen + 1).toNat ≤ s.bufLen.toNat + 1 := Nat.mod_le _ _
    have hroom : (s.bufLen + 1).toNat + n < s.cfg.capacity := by omega
    obtain ⟨m, hrun⟩ := ih (s := ((s.accepted .ok).appendTbuf d).clearClass) hb hroom
    have hsum : s.bufLen + BitVec.ofNat 16 (n + 1 + 1) = s.bufLen + 1 + BitVec.ofNat 16 (n + 1) := by
      rw [BitVec.ofNat_add (n + 1) 1, BitVec.add_comm (BitVec.ofNat 16 (n + 1)), ← BitVec.add_assoc]
      rfl
    have hpush := exec_bufPush_of_room hb (s.tbufFull_of_lt (by omega)) d
    rw [hsum]
    exact ⟨m, (execAll_cons hpush).trans hrun⟩

/-- Settles O15: the full buffer, the one with room, and a buffer of eight bytes filled and pushed to once more. -/
theorem bufPushAppendsOrReportsOverflow : Obligations.BufPushAppendsOrReportsOverflow := by
  refine ⟨fun d => decodeCommand_encode (.bufPush d), fun d s hb he hf => exec_bufPush_of_full hb he hf d,
    fun d s hb hne hwf => ?room, fun d s hb he hcap hlen => ?eight⟩
  case room =>
    exact ⟨_, exec_bufPush_of_room hb (decide_eq_false hne) d, rfl, Memory.read_write_same hwf _ d,
      fun a ha => Memory.read_write_ne ha s.tbuf d⟩
  case eight =>
    have hfit : s.bufLen.toNat + 7 < s.cfg.capacity := by rw [hlen, hcap]; decide
    obtain ⟨m, hrun⟩ := execAll_bufPush_of_room d 7 hb hfit
    rw [hlen] at hrun
    refine ⟨_, hrun, rfl, rfl, exec_bufPush_of_full ?_ ?_ ?_ d⟩
    exacts [hb, he, hcap.symm]

end Sys2Proof.Machine
end

section

/-! The frame scanner's steps: the start of a scan (O30), each response (O31), each phase (O32 to O35), and the counting of
failed bytes (O36, O37). -/

namespace Sys2Proof.Machine

variable {s : State}

/-! ### Failed bytes -/

/-- FailAdd only counts while FAILCNT stays within the budget (spec/42_frame_scanner.md R507). -/
theorem State.failAdd_of_within {k : Nat} (h : s.budget = 0 ∨ (sat16 (s.failCnt.toNat + k)).toNat ≤ s.budget.toNat) :
    s.failAdd k = { s with failCnt := sat16 (s.failCnt.toNat + k) } := by
  rcases s.failAdd_cases k with ⟨e, _⟩ | ⟨_, h0, hlt⟩
  · exact e
  · rcases h with h | h
    · exact absurd h h0
    · exact absurd hlt (BitVec.not_lt.2 h)

theorem State.failAdd_of_over {k : Nat} (he : s.eng ≠ .idle) (h0 : s.budget ≠ 0)
    (h : s.budget.toNat < (sat16 (s.failCnt.toNat + k)).toNat) :
    s.failAdd k = ({ s with failCnt := sat16 (s.failCnt.toNat + k) } : State).ended .budgetExceeded := by
  rcases s.failAdd_cases k with ⟨_, h1 | h1⟩ | ⟨e, _, _⟩
  · exact absurd h1 h0
  · exact absurd h1 (BitVec.not_le.2 h)
  · rw [e]
    exact State.raiseResult_of_running _ he

/-- Settles O36: FAILCNT is at most 0xFFFF, so it is never strictly over a BUDGET of 0xFFFF. -/
theorem failedBytesCountAgainstTheBudget : Obligations.FailedBytesCountAgainstTheBudget := by
  rintro s t k he rfl
  refine ⟨sat16_toNat _, State.failAdd_of_within, State.failAdd_of_over (by simp [he]), fun hb => ?_⟩
  have hmax : (sat16 (s.failCnt.toNat + k)).toNat ≤ s.budget.toNat := by
    rw [sat16_toNat, hb]
    exact min_le_right _ _
  exact State.failAdd_of_within (.inr hmax)

/-- Settles O37: both operations end in FailAdd, which only counts when BUDGET = 0. -/
theorem overflowAndDiscardReturnToHunt : Obligations.OverflowAndDiscardReturnToHunt := fun _ =>
  ⟨rfl, rfl, fun _ hb => ⟨State.failAdd_of_within (.inl hb), State.failAdd_of_within (.inl hb)⟩⟩

/-! ### Starting and answering a scan -/

/-- Settles O30: the rule of FR_SCAN run once on the accepted state. -/
theorem scanStartsHunting : Obligations.ScanStartsHunting :=
  ⟨decodeCommand_encode .frScan, operandRefused (by decide), fun _ hb => exec_of_idle .frScan hb⟩

/-- Settles O31: whether the next RX is issued depends on whether FrByte left the scan running. -/
theorem scanActsOnEachResponse : Obligations.ScanActsOnEachResponse := by
  refine fun s ph h => ⟨respond_timeout_scan h, respond_ioerr_scan h, ?_⟩
  rintro b t rfl
  have hstep := respond_byte_scan h b
  exact ⟨fun he => hstep.trans (congrArg _ (State.frContinue_of_scan he)),
    fun he => hstep.trans (congrArg _ (State.frContinue_of_ended he))⟩

/-! ### HUNT and BODY -/

theorem respond_byte_hunt (h : s.ScanWaits .hunt) (b : Byte) :
    takeMove (.respond (.byte b)) s = .next (s.answered.frHunt b).frContinue := by
  rw [respond_byte_scan h, State.frByte_hunt (s := s.answered) h.phase]

theorem respond_byte_body (h : s.ScanWaits .body) (b : Byte) :
    takeMove (.respond (.byte b)) s = .next (s.answered.frBody b).frContinue := by
  rw [respond_byte_scan h, State.frByte_body (s := s.answered) h.phase]

theorem State.frHunt_slash (s : State) : s.frHunt chSlash = s.startCandidate chSlash := if_pos rfl

theorem State.frBody_slash (s : State) :
    s.frBody chSlash = (s.startCandidate chSlash).failAdd s.bufLen.toNat := if_pos rfl

theorem State.frBody_of_full {b : Byte} (hb : b ≠ chSlash) (hf : s.tbufFull = true) : s.frBody b = s.overflow := by
  rw [State.frBody, if_neg hb, if_pos hf]

theorem State.frBody_bang (hf : s.tbufFull = false) :
    s.frBody chBang = { s.appendTbuf chBang with frPhase := .tail, tailN := 0 } := by
  rw [State.frBody, if_neg (by decide), hf]
  rfl

theorem State.frBody_of_room {b : Byte} (hb : b ≠ chSlash) (hbang : b ≠ chBang) (hf : s.tbufFull = false) :
    s.frBody b = s.appendTbuf b := by
  rw [State.frBody, if_neg hb, hf, if_neg hbang]
  rfl

/-- Settles O32: the two cases of HUNT. -/
theorem huntWaitsForTheStartMarker : Obligations.HuntWaitsForTheStartMarker := by
  refine fun s h => ⟨?_, fun b hb => ?_⟩
  · rw [respond_byte_hunt h, State.frHunt_slash]
    exact congrArg Host.Outcome.next (State.frContinue_of_scan h.eng)
  · rw [respond_byte_hunt h, State.frHunt, if_neg hb]
    rfl

/-- Settles O33: in BODY the test for `/` comes before the capacity check. -/
theorem startMarkerInBodyRestarts : Obligations.StartMarkerInBodyRestarts := by
  intro s h
  have hbody : s.answered.startCandidate chSlash =
      { s with pending := none, tbuf := s.tbuf.write 0 chSlash, bufLen := 1 } := by
    rw [State.startCandidate, ← h.phase]
    rfl
  rw [respond_byte_body h, State.frBody_slash, hbody]
  rfl

/-- Settles O34: the three cases of BODY for a byte that is no `/`. -/
theorem bodyStoresEveryOtherByte : Obligations.BodyStoresEveryOtherByte := by
  refine fun s b h hb => ⟨fun hfull => ?full, fun hroom hbang => ?store, ?bang⟩
  case full =>
    rw [respond_byte_body h, State.frBody_of_full hb (s.answered.tbufFull_iff.2 hfull)]
    rfl
  case store =>
    have hf : s.answered.tbufFull = false := decide_eq_false hroom
    rw [respond_byte_body h, State.frBody_of_room hb hbang hf]
    exact congrArg Host.Outcome.next (State.frContinue_of_scan h.eng)
  case bang =>
    rintro hroom rfl
    have hf : s.answered.tbufFull = false := decide_eq_false hroom
    rw [respond_byte_body h, State.frBody_bang hf]
    exact congrArg Host.Outcome.next (State.frContinue_of_scan h.eng)

/-! ### TAIL -/

/-- In TAIL a byte that fits joins the chunk, which is then checked. -/
theorem respond_byte_tail (h : s.ScanWaits .tail) (hf : s.bufLen.toNat ≠ s.cfg.capacity) (b : Byte) :
    takeMove (.respond (.byte b)) s = .next (s.answered.storeTail b).checkTail.frContinue := by
  have hf' : s.answered.tbufFull = false := decide_eq_false hf
  rw [respond_byte_scan h, State.frByte_tail (s := s.answered) h.phase, State.frTail, hf']
  rfl

theorem State.newTailOk_iff : s.newTailOk = true ↔
    isHex (s.tailByte 0) ∧ isHex (s.tailByte 1) ∧ isHex (s.tailByte 2) ∧ isHex (s.tailByte 3) ∧
      s.tailByte 4 = chCR ∧ s.tailByte 5 = chLF := by
  simp [State.newTailOk, and_assoc]

/-- The check of a chunk of two bytes that starts with CR (spec/42_frame_scanner.md R506, the old style). -/
theorem State.checkTail_of_old (h2 : s.tailN = 2) (h0 : s.tailByte 0 = chCR) :
    s.checkTail = if s.tailByte 1 = chLF then s.raiseResult .ok else s.discard :=
  if_pos ⟨h2, h0⟩

/-- The check of a chunk of six bytes (spec/42_frame_scanner.md R506, the new style). -/
theorem State.checkTail_of_new (h6 : s.tailN = 6) :
    s.checkTail = if s.newTailOk then s.raiseResult .ok else s.discard := by
  rw [State.checkTail, if_neg (by omega), if_pos h6]

theorem State.checkTail_of_open (h6 : s.tailN ≠ 6) (h2 : ¬(s.tailN = 2 ∧ s.tailByte 0 = chCR)) : s.checkTail = s := by
  rw [State.checkTail, if_neg h2, if_neg h6]

/-- Settles O35: a byte that does not fit overflows; one that fits is stored, and then the chunk is checked. -/
theorem tailChunkIsCheckedWhenComplete : Obligations.TailChunkIsCheckedWhenComplete := by
  refine ⟨fun s b h hfull => ?_, ?_⟩
  · have hf : s.answered.tbufFull = true := s.answered.tbufFull_iff.2 hfull
    rw [respond_byte_scan h, State.frByte_tail (s := s.answered) h.phase, State.frTail, if_pos hf]
    rfl
  intro s u b x h hroom hu hx
  have hstep : takeMove (.respond (.byte b)) s = .next u.checkTail.frContinue := by
    rw [respond_byte_tail h hroom, hu]
    rfl
  have hrun : u.eng = .fr := by rw [hu]; exact h.eng
  have hok : (u.raiseResult .ok).frContinue = u.ended .ok := by
    rw [State.raiseResult_of_running _ (by simp [hrun])]
    exact State.frContinue_of_ended (by simp [State.ended])
  have hchunk : ∀ j, x j = u.tailByte j := fun j => congrFun hx j
  simp only [hchunk, hstep]
  refine ⟨fun h2 h0 h1 => ?_, fun h2 h0 h1 => ?_, fun h6 hn => ?_, fun h6 hn => ?_, fun h6 h2 => ?_⟩
  · rw [State.checkTail_of_old h2 h0, if_pos h1, hok]
  · rw [State.checkTail_of_old h2 h0, if_neg h1]
  · rw [State.checkTail_of_new h6, if_pos (State.newTailOk_iff.2 hn), hok]
  · rw [State.checkTail_of_new h6, if_neg fun e => hn (State.newTailOk_iff.1 e)]
  · rw [State.checkTail_of_open h6 h2, State.frContinue_of_scan hrun]

end Sys2Proof.Machine
end

section

/-! A scan fed garbage without `!` and then a telegram that fits returns exactly the telegram (O38). -/

namespace Sys2Proof.Machine

variable {o s : State} {n : Nat} {c : List Byte} {b : Byte}

theorem respondAll_bytes_append {t : State} {bs : List Byte} (h : respondAll (asBytes bs) s = .next t) (cs : List Byte) :
    respondAll (asBytes (bs ++ cs)) s = respondAll (asBytes cs) t := by
  rw [asBytes, List.map_append]
  exact respondAll_append h

/-! ### What a scan has counted and holds -/

/-- The budget of block o allows n failed bytes (spec/42_frame_scanner.md R507). -/
def State.Allows (o : State) (n : Nat) : Prop := o.budget = 0 ∨ n ≤ o.budget.toNat

/-- A scan with o's capacity and budget waits in a phase for its next byte: n bytes have failed, and c is the candidate. -/
structure State.Holds (o s : State) (ph : FrPhase) (n : Nat) (c : List Byte) : Prop where
  waits : s.ScanWaits ph
  buffers : s.BufferInv
  capacity : s.cfg.capacity = o.cfg.capacity
  budget : s.budget = o.budget
  failCnt : s.failCnt = sat16 n
  telegram : s.telegram = c

theorem State.Holds.length {ph : FrPhase} (h : o.Holds s ph n c) : s.bufLen.toNat = c.length := by
  rw [← h.telegram, State.telegram_length]

/-- A candidate shorter than the capacity leaves room for a byte. -/
theorem State.Holds.room {ph : FrPhase} (h : o.Holds s ph n c) (hc : c.length < o.cfg.capacity) :
    s.bufLen.toNat ≠ s.cfg.capacity := by
  rw [h.length, h.capacity]
  exact hc.ne

theorem State.Holds.appendTbuf {ph : FrPhase} (h : o.Holds s ph n c) (hroom : s.bufLen.toNat ≠ s.cfg.capacity)
    (b : Byte) : o.Holds ((s.appendTbuf b).requested .rx) ph n (c ++ [b]) := by
  have hf : s.tbufFull = false := decide_eq_false hroom
  exact
    { h with
      waits := ⟨h.waits.eng, h.waits.phase, rfl⟩
      buffers := { h.buffers.appendTbuf hf b with }
      telegram := (h.buffers.appendTbuf_telegram hf b).trans (congrArg (· ++ [b]) h.telegram) }

/-- The candidate is a single `/` (spec/42_frame_scanner.md R502, R503). -/
theorem State.Holds.startCandidate {ph : FrPhase} (h : o.Holds s ph n c) :
    o.Holds ((s.startCandidate chSlash).requested .rx) .body n [chSlash] :=
  { h with
    waits := ⟨h.waits.eng, rfl, rfl⟩
    buffers :=
      { h.buffers with
        bufLen_le := h.buffers.capacity_pos
        tbuf_wf := Memory.write_wf h.buffers.tbuf_wf _ _
        tbuf_inside := Memory.write_inside h.buffers.tbuf_inside h.buffers.capacity_pos chSlash }
    telegram := Memory.firstBytes_append h.buffers.tbuf_wf 0 chSlash }

/-- No candidate, and the hunt goes on (spec/42_frame_scanner.md R508, R509). -/
theorem State.Holds.hunting {ph : FrPhase} (h : o.Holds s ph n c) (ovf : Bool) :
    o.Holds (({ s with
      bufLen := 0, status := { s.status with ovf := ovf }, frPhase := .hunt, tailN := 0 } : State).requested .rx)
      .hunt n [] :=
  { h with
    waits := ⟨h.waits.eng, rfl, rfl⟩
    buffers := { h.buffers with bufLen_le := Nat.zero_le _ }
    telegram := rfl }

/-- FailAdd(k) before the next RX only counts, as long as the budget allows it. -/
theorem State.Holds.failAdd {ph : FrPhase} {k : Nat} (h : o.Holds (s.requested .rx) ph n c) (ha : o.Allows (n + k)) :
    o.Holds (s.failAdd k).frContinue ph (n + k) c := by
  have hn : s.failCnt = sat16 n := h.failCnt
  have hb : s.budget = o.budget := h.budget
  have hsum : sat16 (s.failCnt.toNat + k) = sat16 (n + k) := by rw [hn, sat16_add]
  have hle : (sat16 (s.failCnt.toNat + k)).toNat ≤ n + k := by
    rw [hsum, sat16_toNat]
    exact min_le_left _ _
  have hadd : s.failAdd k = { s with failCnt := sat16 (n + k) } := by
    rw [← hsum]
    exact State.failAdd_of_within (hb ▸ ha.imp_right hle.trans)
  rw [hadd, State.frContinue_of_scan (by exact h.waits.eng)]
  exact { h with waits := ⟨h.waits.eng, h.waits.phase, rfl⟩, buffers := { h.buffers with }, failCnt := rfl }

/-! ### Bytes before the telegram -/

/-- A scan of o's stream after k bytes without `!`: each has failed or belongs to the candidate. -/
def State.Searches (o s : State) (k : Nat) : Prop :=
  o.Holds s .hunt k [] ∨ ∃ n c, o.Holds s .body n c ∧ n + c.length = k

/-- Whether it starts a candidate or restarts one, a `/` leaves all bytes before it failed. -/
theorem State.Searches.slash {k : Nat} (h : o.Searches s k) (ha : o.Allows k) :
    ∃ t, takeMove (.respond (.byte chSlash)) s = .next t ∧ o.Holds t .body k [chSlash] := by
  rcases h with h | ⟨n, c, h, rfl⟩
  · exact ⟨_, (huntWaitsForTheStartMarker s h.waits).1, h.startCandidate⟩
  · have hstep := respond_byte_body h.waits chSlash
    rw [State.frBody_slash, State.answered_bufLen, h.length] at hstep
    exact ⟨_, hstep, State.Holds.failAdd (s := s.answered.startCandidate chSlash) h.startCandidate ha⟩

/-- A byte of the garbage: it fails, joins a candidate, or overflows one, which then fails with it. -/
theorem State.Searches.byte {k : Nat} (h : o.Searches s k) (hbang : b ≠ chBang) (ha : o.Allows (k + 1)) :
    ∃ t, takeMove (.respond (.byte b)) s = .next t ∧ o.Searches t (k + 1) := by
  by_cases hb : b = chSlash
  · subst hb
    obtain ⟨t, ht, h'⟩ := h.slash (ha.imp_right Nat.le_of_succ_le)
    exact ⟨t, ht, .inr ⟨k, _, h', rfl⟩⟩
  rcases h with h | ⟨n, c, h, rfl⟩
  · refine ⟨_, (huntWaitsForTheStartMarker s h.waits).2 b hb, .inl (State.Holds.failAdd ?_ ha)⟩
    exact { h with waits := ⟨h.waits.eng, h.waits.phase, rfl⟩, buffers := { h.buffers with } }
  · have hstep := bodyStoresEveryOtherByte s b h.waits hb
    by_cases hfull : s.bufLen.toNat = s.cfg.capacity
    · refine ⟨_, hstep.1 hfull, .inl ?_⟩
      show o.Holds (State.failAdd (s.bufLen.toNat + 1) _).frContinue .hunt _ []
      rw [h.length]
      exact State.Holds.failAdd (h.hunting true) ha
    · refine ⟨_, hstep.2.1 hfull hbang, .inr ⟨n, c ++ [b], h.appendTbuf hfull b, ?_⟩⟩
      rw [List.length_append, List.length_singleton, Nat.add_assoc]

theorem State.Searches.bytes {k : Nat} {g : List Byte} (h : o.Searches s k) (hbang : chBang ∉ g)
    (ha : o.Allows (k + g.length)) :
    ∃ t, respondAll (asBytes g) s = .next t ∧ o.Searches t (k + g.length) := by
  induction g generalizing s k with
  | nil => exact ⟨s, rfl, h⟩
  | cons b g ih =>
    obtain ⟨hb, hg⟩ := not_or.1 (List.mem_cons.not.1 hbang)
    have hlen : k + (b :: g).length = k + 1 + g.length := by rw [List.length_cons]; omega
    rw [hlen] at ha ⊢
    obtain ⟨t, ht, h'⟩ := h.byte (Ne.symm hb) (ha.imp_right Nat.le_of_add_right_le)
    obtain ⟨u, hu, h''⟩ := ih h' hg ha
    exact ⟨u, respondAll_step ht hu, h''⟩

/-! ### The body of the telegram -/

/-- A body that fits is stored after the candidate. -/
theorem State.Holds.bodyBytes {bs : List Byte} (h : o.Holds s .body n c) (hslash : chSlash ∉ bs) (hbang : chBang ∉ bs)
    (hc : c.length + bs.length ≤ o.cfg.capacity) :
    ∃ t, respondAll (asBytes bs) s = .next t ∧ o.Holds t .body n (c ++ bs) := by
  induction bs generalizing s c with
  | nil => exact ⟨s, rfl, c.append_nil.symm ▸ h⟩
  | cons b bs ih =>
    obtain ⟨hs, hslash⟩ := not_or.1 (List.mem_cons.not.1 hslash)
    obtain ⟨hb, hbang⟩ := not_or.1 (List.mem_cons.not.1 hbang)
    rw [List.length_cons] at hc
    have hroom := h.room (by omega)
    have hstep := (bodyStoresEveryOtherByte s b h.waits (Ne.symm hs)).2.1 hroom (Ne.symm hb)
    obtain ⟨u, hu, h'⟩ := ih (h.appendTbuf hroom b) hslash hbang (by rw [List.length_append, List.length_singleton]; omega)
    exact ⟨u, respondAll_step hstep hu, List.append_cons c b bs ▸ h'⟩

/-! ### The tail of the telegram -/

/-- A scan in the tail: the candidate up to its `!` is c, and x the chunk after it (spec/42_frame_scanner.md R506). -/
structure State.HoldsTail (o s : State) (n : Nat) (c x : List Byte) : Prop extends State.Holds o s .tail n (c ++ x) where
  tailN : s.tailN = x.length

variable {x : List Byte}

theorem State.Holds.bang (h : o.Holds s .body n c) (hc : c.length < o.cfg.capacity) :
    ∃ t, takeMove (.respond (.byte chBang)) s = .next t ∧ o.HoldsTail t n (c ++ [chBang]) [] := by
  have hroom := h.room hc
  refine ⟨_, (bodyStoresEveryOtherByte s chBang h.waits (by decide)).2.2 hroom rfl, ?_, rfl⟩
  have ha := h.appendTbuf hroom chBang
  rw [List.append_nil]
  exact { ha with waits := ⟨h.waits.eng, rfl, rfl⟩, buffers := { ha.buffers with } }

theorem State.HoldsTail.chunk_getElem? (h : o.HoldsTail s n c x) {j : Nat} (hj : j < x.length) :
    x[j]? = some (s.tailByte j) := by
  have hlen := h.length
  rw [List.length_append] at hlen
  calc x[j]? = s.telegram[c.length + j]? := by
        rw [h.telegram, List.getElem?_append_right (Nat.le_add_right _ _), Nat.add_sub_cancel_left]
    _ = some (s.tailByte j) := by
        rw [State.telegram, Memory.firstBytes_getElem?, if_pos (by omega), State.tailByte, h.tailN, hlen,
          Nat.add_sub_cancel]

theorem State.HoldsTail.tailByte_eq (h : o.HoldsTail s n c x) {j : Nat} (hb : x[j]? = some b) : s.tailByte j = b :=
  Option.some.inj ((h.chunk_getElem? (List.getElem?_eq_some_iff.1 hb).1).symm.trans hb)

/-- The next byte joins the chunk, which is then checked. -/
theorem State.HoldsTail.store (h : o.HoldsTail s n c x) (hc : c.length + x.length < o.cfg.capacity) (b : Byte) :
    ∃ u : State, takeMove (.respond (.byte b)) s = .next u.checkTail.frContinue ∧ u.eng = .fr ∧
      o.HoldsTail (u.requested .rx) n c (x ++ [b]) := by
  have hroom := h.room (by rwa [List.length_append])
  refine ⟨_, respond_byte_tail h.waits hroom b, h.waits.eng, ?_, ?_⟩
  · have ha := h.appendTbuf hroom b
    rw [← List.append_assoc]
    exact { ha with waits := ⟨h.waits.eng, h.waits.phase, rfl⟩, buffers := { ha.buffers with } }
  · show s.tailN + 1 = _
    rw [h.tailN, List.length_append, List.length_singleton]

/-- Up to five bytes of a chunk are read on, unless it starts with CR and has two. -/
theorem State.HoldsTail.bytes {y : List Byte} (h : o.HoldsTail s n c x)
    (hc : c.length + (x ++ y).length ≤ o.cfg.capacity) (h5 : (x ++ y).length ≤ 5)
    (hCR : 2 ≤ (x ++ y).length → (x ++ y).head? ≠ some chCR) :
    ∃ t, respondAll (asBytes y) s = .next t ∧ o.HoldsTail t n c (x ++ y) := by
  induction y generalizing s x with
  | nil => exact ⟨s, rfl, x.append_nil.symm ▸ h⟩
  | cons b y ih =>
    rw [List.append_cons] at hc h5 hCR ⊢
    obtain ⟨u, hstep, he, hu⟩ := h.store (by simp only [List.length_append, List.length_singleton] at hc; omega) b
    have hn : u.tailN = (x ++ [b]).length := hu.tailN
    have hfirst : (x ++ [b] ++ y).head? = some (u.tailByte 0) := by
      rw [List.head?_append, List.head?_eq_getElem?, hu.chunk_getElem? (by simp)]
      rfl
    have hopen : u.checkTail = u := by
      rw [List.length_append] at h5
      refine State.checkTail_of_open (by omega) fun ⟨h2, hcr⟩ => hCR ?_ (hcr ▸ hfirst)
      rw [List.length_append]
      omega
    rw [hopen, State.frContinue_of_scan he] at hstep
    obtain ⟨t, ht, h'⟩ := ih hu hc h5 hCR
    exact ⟨t, respondAll_step hstep ht, h'⟩

/-- The two shapes of a tail, CR LF, or four hex digits and CR LF (spec/42_frame_scanner.md R506). -/
def IsTail (x : List Byte) : Prop :=
  x = [0x0D, 0x0A] ∨ ∃ h0 h1 h2 h3, x = [h0, h1, h2, h3, 0x0D, 0x0A] ∧ isHex h0 ∧ isHex h1 ∧ isHex h2 ∧ isHex h3

/-- The chunk before its last byte is one that is read on. -/
theorem IsTail.split (h : IsTail x) :
    ∃ y, x = y ++ [chLF] ∧ y.length ≤ 5 ∧ (2 ≤ y.length → y.head? ≠ some chCR) := by
  rcases h with rfl | ⟨h0, h1, h2, h3, rfl, hx, _⟩
  · exact ⟨[chCR], rfl, by decide, by decide⟩
  · refine ⟨[h0, h1, h2, h3, chCR], rfl, le_rfl, fun _ e => ?_⟩
    rw [Option.some.inj e] at hx
    exact absurd hx (by decide)

theorem State.HoldsTail.checkTail_of_isTail (h : o.HoldsTail (s.requested .rx) n c x) (hx : IsTail x) :
    s.checkTail = s.raiseResult .ok := by
  have hn : s.tailN = x.length := h.tailN
  have hb : ∀ j b, x[j]? = some b → s.tailByte j = b := fun _ _ => h.tailByte_eq
  rcases hx with rfl | ⟨h0, h1, h2, h3, rfl, d0, d1, d2, d3⟩
  · rw [State.checkTail_of_old hn (hb 0 _ rfl), if_pos (hb 1 _ rfl)]
  · have hok : s.newTailOk = true := by
      rw [State.newTailOk_iff, hb 0 h0 rfl, hb 1 h1 rfl, hb 2 h2 rfl, hb 3 h3 rfl, hb 4 _ rfl, hb 5 _ rfl]
      exact ⟨d0, d1, d2, d3, rfl, rfl⟩
    rw [State.checkTail_of_new hn, if_pos hok]

/-- After a tail of either shape the scan ends, and the telegram stands in the buffer. -/
theorem State.HoldsTail.accept (h : o.HoldsTail s n c []) (hx : IsTail x) (hc : c.length + x.length ≤ o.cfg.capacity) :
    ∃ u : State, respondAll (asBytes x) s = .next (u.ended .ok) ∧ u.telegram = c ++ x ∧ u.failCnt = sat16 n := by
  obtain ⟨y, rfl, h5, hCR⟩ := hx.split
  have hlen : c.length + y.length < o.cfg.capacity := by
    rw [List.length_append, List.length_singleton] at hc
    omega
  obtain ⟨t, ht, h'⟩ := h.bytes hlen.le h5 hCR
  obtain ⟨u, hstep, he, hu⟩ := h'.store hlen chLF
  have hcheck : u.checkTail = u.ended .ok :=
    (hu.checkTail_of_isTail hx).trans (State.raiseResult_of_running _ (by simp [he]))
  rw [hcheck, State.frContinue_of_ended (by simp [State.ended])] at hstep
  refine ⟨u, ?_, hu.telegram, hu.failCnt⟩
  exact (respondAll_bytes_append ht _).trans (respondAll_step hstep rfl)

/-! ### The whole stream -/

/-- The start of a scan has read no byte. -/
theorem State.BufferInv.startScan_searches (h : s.BufferInv) : s.Searches (s.setRej false).startScan 0 :=
  .inl
    { waits := ⟨rfl, rfl, rfl⟩
      buffers := { h with bufLen_le := Nat.zero_le _ }
      capacity := rfl
      budget := rfl
      failCnt := rfl
      telegram := rfl }

/-- Settles O38: the garbage, the `/`, the body, the `!` and the tail, one after another. -/
theorem scanResynchronizesOnAValidTelegram : Obligations.ScanResynchronizesOnAValidTelegram := by
  intro s g body tail hs hb hg hslash hbang htail hcap hbudget
  simp only [List.cons_append, List.length_cons, List.length_append] at hcap
  obtain ⟨t₁, r₁, h₁⟩ := hs.startScan_searches.bytes hg (by rwa [Nat.zero_add])
  rw [Nat.zero_add] at h₁
  obtain ⟨t₂, r₂, h₂⟩ := h₁.slash hbudget
  obtain ⟨t₃, r₃, h₃⟩ := h₂.bodyBytes hslash hbang (by rw [List.length_singleton]; omega)
  obtain ⟨t₄, r₄, h₄⟩ := h₃.bang (by rw [List.length_append, List.length_singleton]; omega)
  obtain ⟨u, r₅, htel, hfail⟩ := h₄.accept htail (by simp only [List.length_append, List.length_singleton]; omega)
  refine ⟨u.ended .ok, ?_, rfl, rfl, rfl, ?_, hfail⟩
  · rw [scanRun, exec_of_idle .frScan hb]
    calc respondAll (asBytes (g ++ (chSlash :: body ++ chBang :: tail))) (s.setRej false).startScan
        = respondAll (asBytes (chSlash :: (body ++ chBang :: tail))) t₁ := respondAll_bytes_append r₁ _
      _ = respondAll (asBytes (body ++ chBang :: tail)) t₂ := respondAll_cons r₂
      _ = respondAll (asBytes (chBang :: tail)) t₃ := respondAll_bytes_append r₃ _
      _ = respondAll (asBytes tail) t₄ := respondAll_cons r₄
      _ = .next (u.ended .ok) := r₅
  · calc u.telegram = [chSlash] ++ body ++ [chBang] ++ tail := htel
      _ = chSlash :: body ++ chBang :: tail := List.append_assoc _ _ _

end Sys2Proof.Machine
end

section

/-! Two scans fed the same responses end alike (O39): every operation of the scanner keeps them in the same place. -/

namespace Sys2Proof.Machine

variable {s t : State}

/-! ### Related outcomes -/

/-- Related outcomes are related next states or one refusal. -/
theorem OutcomeRel.inv {R : State → State → Prop} {x y : Host.Outcome State Fault Refusal} (h : OutcomeRel R x y) :
    (∃ u v, x = .next u ∧ y = .next v ∧ R u v) ∨ ∃ r, x = .refused r ∧ y = .refused r := by
  unfold OutcomeRel at h
  split at h
  · exact .inl ⟨_, _, rfl, rfl, h⟩
  · exact .inr ⟨_, rfl, congrArg _ h.symm⟩
  · exact h.elim

theorem respondAll_of_refused {a : Response} {as : List Response} {r : Refusal}
    (h : takeMove (.respond a) s = .refused r) : respondAll (a :: as) s = .refused r := by
  rw [respondAll, h]

/-! ### The relation -/

/-- Two scans in the same place, with what keeps them there: BUFLEN stays within a capacity that fits 16 bits, the tail
chunk lies below BUFLEN, the buffers are in canonical form, and no D0 cycle runs. -/
structure SameScanning (s t : State) : Prop extends SameScan s t where
  capacity_pos : 0 < s.cfg.capacity
  capacity_le : s.cfg.capacity ≤ 65535
  bufLen_le : s.bufLen.toNat ≤ s.cfg.capacity
  tailN_le : s.eng = .fr → s.frPhase = .tail → s.tailN ≤ s.bufLen.toNat
  tbuf_wf_left : s.tbuf.wf = true
  tbuf_wf_right : t.tbuf.wf = true
  not_cycle : s.eng ≠ .d0

namespace SameScanning

theorem ovf (h : SameScanning s t) : s.status.ovf = t.status.ovf := h.status.2.1

/-! ### Results and failed bytes -/

theorem raiseResult (h : SameScanning s t) (he : s.eng = .fr) (c : ResultCode) :
    SameScanning (s.raiseResult c) (t.raiseResult c) := by
  have hs : s.eng ≠ .idle := by simp [he]
  rw [State.raiseResult_of_running c hs, State.raiseResult_of_running c (h.eng ▸ hs)]
  have hle : (s.ended c).bufLen.toNat ≤ s.bufLen.toNat := by
    unfold State.ended
    dsimp only
    split
    · exact le_rfl
    · exact Nat.zero_le _
  exact
    { h with
      status := ⟨rfl, h.ovf, fun _ => rfl⟩
      eng := rfl
      pending := rfl
      bufLen := by simp only [State.ended, h.bufLen]
      tbuf := fun i hi => h.tbuf i (lt_of_lt_of_le hi hle)
      bufLen_le := hle.trans h.bufLen_le
      tailN_le := nofun
      not_cycle := nofun }

theorem failAdd (h : SameScanning s t) (he : s.eng = .fr) (k : Nat) : SameScanning (s.failAdd k) (t.failAdd k) := by
  have hc : SameScanning { s with failCnt := sat16 (s.failCnt.toNat + k) }
      { t with failCnt := sat16 (t.failCnt.toNat + k) } :=
    { h with failCnt := by rw [h.failCnt] }
  have hover : State.overBudget { t with failCnt := sat16 (t.failCnt.toNat + k) } =
      State.overBudget { s with failCnt := sat16 (s.failCnt.toNat + k) } := by
    simp only [State.overBudget, h.budget, h.failCnt]
  unfold State.failAdd
  dsimp only
  rw [hover]
  split
  · exact hc.raiseResult he _
  · exact hc

/-- Both scans drop their candidate and hunt (spec/42_frame_scanner.md R508, R509). -/
theorem hunting (h : SameScanning s t) {o o' : Bool} (ho : o = o') :
    SameScanning { s with bufLen := 0, status := { s.status with ovf := o }, frPhase := .hunt, tailN := 0 }
      { t with bufLen := 0, status := { t.status with ovf := o' }, frPhase := .hunt, tailN := 0 } :=
  { h with
    status := ⟨h.status.1, ho, h.status.2.2⟩
    bufLen := rfl
    frPhase := rfl
    tailN := rfl
    tbuf := fun _ hi => absurd hi (Nat.not_lt_zero _)
    bufLen_le := Nat.zero_le _
    tailN_le := fun _ _ => Nat.zero_le _ }

theorem discard (h : SameScanning s t) (he : s.eng = .fr) : SameScanning s.discard t.discard := by
  unfold State.discard
  rw [← h.bufLen]
  exact (h.hunting h.ovf).failAdd he _

theorem overflow (h : SameScanning s t) (he : s.eng = .fr) : SameScanning s.overflow t.overflow := by
  unfold State.overflow
  rw [← h.bufLen]
  exact (h.hunting rfl).failAdd he _

/-! ### Bytes stored -/

theorem tbufFull (h : SameScanning s t) : t.tbufFull = s.tbufFull := by
  simp only [State.tbufFull, h.bufLen, h.capacity]

theorem startCandidate (h : SameScanning s t) (b : Byte) : SameScanning (s.startCandidate b) (t.startCandidate b) :=
  { h with
    bufLen := rfl
    frPhase := rfl
    tbuf := fun _ hi => Memory.read_write_congr h.tbuf_wf_left h.tbuf_wf_right (n := 0)
      (fun _ hj => absurd hj (Nat.not_lt_zero _)) b hi
    bufLen_le := h.capacity_pos
    tailN_le := nofun
    tbuf_wf_left := Memory.write_wf h.tbuf_wf_left _ _
    tbuf_wf_right := Memory.write_wf h.tbuf_wf_right _ _ }

theorem appendTbuf_length (h : SameScanning s t) (hf : s.tbufFull = false) (b : Byte) :
    (s.appendTbuf b).bufLen.toNat = s.bufLen.toNat + 1 ∧ s.bufLen.toNat < s.cfg.capacity := by
  have hne : s.bufLen.toNat ≠ s.cfg.capacity := of_decide_eq_false hf
  have hlt : s.bufLen.toNat < s.cfg.capacity := lt_of_le_of_ne h.bufLen_le hne
  exact ⟨State.appendTbuf_bufLen_toNat b (lt_of_lt_of_le hlt h.capacity_le), hlt⟩

theorem appendTbuf (h : SameScanning s t) (hf : s.tbufFull = false) (b : Byte) :
    SameScanning (s.appendTbuf b) (t.appendTbuf b) := by
  obtain ⟨hl, hlt⟩ := h.appendTbuf_length hf b
  exact
    { h with
      bufLen := congrArg (· + 1) h.bufLen
      tbuf := fun i hi => by
        rw [State.appendTbuf_tbuf, State.appendTbuf_tbuf, ← h.bufLen]
        exact Memory.read_write_congr h.tbuf_wf_left h.tbuf_wf_right h.tbuf b (hl ▸ hi)
      bufLen_le := hl.trans_le hlt
      tailN_le := fun he hp => (h.tailN_le he hp).trans (hl ▸ Nat.le_succ _)
      tbuf_wf_left := Memory.write_wf h.tbuf_wf_left _ _
      tbuf_wf_right := Memory.write_wf h.tbuf_wf_right _ _ }

/-- A stored byte of the tail chunk. -/
theorem storeTail (h : SameScanning s t) (hf : s.tbufFull = false) (b : Byte) :
    SameScanning (s.storeTail b) (t.storeTail b) :=
  { h.appendTbuf hf b with
    tailN := congrArg (· + 1) h.tailN
    tailN_le := fun he hp => (h.appendTbuf_length hf b).1 ▸ Nat.succ_le_succ (h.tailN_le he hp) }

/-! ### The phases -/

theorem frHunt (h : SameScanning s t) (he : s.eng = .fr) (b : Byte) : SameScanning (s.frHunt b) (t.frHunt b) := by
  unfold State.frHunt
  split
  · exact h.startCandidate b
  · exact h.failAdd he 1

theorem frBody (h : SameScanning s t) (he : s.eng = .fr) (b : Byte) : SameScanning (s.frBody b) (t.frBody b) := by
  unfold State.frBody
  rw [h.tbufFull, ← h.bufLen]
  split
  · exact (h.startCandidate b).failAdd he _
  split
  · exact h.overflow he
  rename_i hf
  have ha := h.appendTbuf (by simpa using hf) b
  split
  · exact { ha with frPhase := rfl, tailN := rfl, tailN_le := fun _ _ => Nat.zero_le _ }
  · exact ha

/-- The bytes of the tail chunk are below BUFLEN, so the two scans see the same chunk. -/
theorem tailByte (h : SameScanning s t) (hn : s.tailN ≤ s.bufLen.toNat) {j : Nat} (hj : j < s.tailN) :
    t.tailByte j = s.tailByte j := by
  rw [State.tailByte, State.tailByte, ← h.bufLen, ← h.tailN]
  exact (h.tbuf _ (by omega)).symm

theorem checkTail (h : SameScanning s t) (he : s.eng = .fr) (hp : s.frPhase = .tail) :
    SameScanning s.checkTail t.checkTail := by
  have hx : ∀ j, j < s.tailN → t.tailByte j = s.tailByte j := fun j => h.tailByte (h.tailN_le he hp)
  have hold : t.tailN = 2 ∧ t.tailByte 0 = chCR ↔ s.tailN = 2 ∧ s.tailByte 0 = chCR := by
    rw [← h.tailN]
    exact and_congr_right fun h2 => by rw [hx 0 (by omega)]
  have hend := h.raiseResult he .ok
  have hdis := h.discard he
  by_cases h2 : s.tailN = 2 ∧ s.tailByte 0 = chCR
  · rw [State.checkTail_of_old h2.1 h2.2, State.checkTail_of_old (hold.2 h2).1 (hold.2 h2).2, hx 1 (by omega)]
    split
    · exact hend
    · exact hdis
  by_cases h6 : s.tailN = 6
  · have hnew : t.newTailOk = s.newTailOk := by
      simp only [State.newTailOk, hx 0 (by omega), hx 1 (by omega), hx 2 (by omega), hx 3 (by omega), hx 4 (by omega),
        hx 5 (by omega)]
    rw [State.checkTail_of_new h6, State.checkTail_of_new (h.tailN ▸ h6), hnew]
    split
    · exact hend
    · exact hdis
  · rw [State.checkTail_of_open h6 h2, State.checkTail_of_open (h.tailN ▸ h6) fun e => h2 (hold.1 e)]
    exact h

theorem frTail (h : SameScanning s t) (he : s.eng = .fr) (hp : s.frPhase = .tail) (b : Byte) :
    SameScanning (s.frTail b) (t.frTail b) := by
  unfold State.frTail
  rw [h.tbufFull]
  split
  · exact h.overflow he
  · rename_i hf
    exact (h.storeTail (by simpa using hf) b).checkTail he hp

theorem frByte (h : SameScanning s t) (he : s.eng = .fr) (b : Byte) : SameScanning (s.frByte b) (t.frByte b) := by
  unfold State.frByte
  rw [← h.frPhase]
  split
  · exact h.frHunt he b
  · exact h.frBody he b
  · rename_i hp
    exact h.frTail he hp b

/-! ### Responses -/

theorem issue (h : SameScanning s t) (r : Request) : SameScanning (s.issue r) (t.issue r) := { h with pending := rfl }

theorem frContinue (h : SameScanning s t) : SameScanning s.frContinue t.frContinue := by
  unfold State.frContinue
  rw [← h.eng]
  split
  · exact h.issue .rx
  · exact h

theorem frRespond (h : SameScanning s t) (he : s.eng = .fr) (a : Response) :
    Option.Rel SameScanning (s.frRespond a) (t.frRespond a) := by
  cases a with
  | byte b => exact .some (h.frByte he b).frContinue
  | timeout => exact .some (h.raiseResult he _)
  | ioerr => exact .some (h.raiseResult he _)
  | ok => exact .none
  | done => exact .none

/-- One response to both scans: the same refusal, or two scans in the same place. -/
theorem respond (h : SameScanning s t) (a : Response) : OutcomeRel SameScanning (s.respond a) (t.respond a) := by
  have hc : Option.Rel SameScanning (s.answered.engineConsume a) (t.answered.engineConsume a) := by
    have ha : SameScanning s.answered t.answered := { h with pending := rfl }
    unfold State.engineConsume
    rw [← ha.eng]
    split
    · exact .none
    · rename_i he
      exact ha.frRespond he a
    · rename_i he
      exact absurd he h.not_cycle
  unfold State.respond
  rw [← h.pending]
  split
  · rfl
  generalize s.answered.engineConsume a = x, t.answered.engineConsume a = y at hc ⊢
  split
  · cases hc with
    | none => rfl
    | some hr => exact hr
  · rfl

theorem respondAll (h : SameScanning s t) (as : List Response) :
    OutcomeRel SameScan (respondAll as s) (respondAll as t) := by
  induction as generalizing s t with
  | nil => exact h.toSameScan
  | cons a as ih =>
    rcases OutcomeRel.inv (h.respond a) with ⟨u, v, hu, hv, huv⟩ | ⟨r, hu, hv⟩
    · rw [respondAll_cons hu, respondAll_cons hv]
      exact ih huv
    · rw [respondAll_of_refused hu, respondAll_of_refused hv]
      rfl

end SameScanning

/-- Settles O39: both starts put the scans in the same place, and every response keeps them there. -/
theorem scansOfTheSameStreamEndAlike : Obligations.ScansOfTheSameStreamEndAlike := by
  intro s t as hc hs ht hbs hbt hcap hbudget
  simp only [Config.Params.wf, Bool.and_eq_true, decide_eq_true_eq] at hc
  have hstart : SameScanning (s.setRej false).startScan (t.setRej false).startScan :=
    { capacity := hcap
      budget := hbudget
      status := ⟨rfl, rfl, nofun⟩
      eng := rfl
      frPhase := rfl
      tailN := rfl
      bufLen := rfl
      failCnt := rfl
      pending := rfl
      tbuf := fun _ hi => absurd hi (Nat.not_lt_zero _)
      capacity_pos := by show 0 < s.cfg.capacity; omega
      capacity_le := by show s.cfg.capacity ≤ 65535; omega
      bufLen_le := Nat.zero_le _
      tailN_le := nofun
      tbuf_wf_left := hs
      tbuf_wf_right := ht
      not_cycle := nofun }
  rw [scanRun, scanRun, exec_of_idle .frScan hbs, exec_of_idle .frScan hbt]
  exact hstart.respondAll as

end Sys2Proof.Machine
end

section

/-! The D0 engine's byte rules, one equation per case: the telegram read (spec/43_d0_engine.md R650 to R655) and the
identification read (R610). -/

namespace Sys2Proof.Machine

variable {s : State} {b : Byte}

/-! ### The telegram read -/

/-- Whatever the byte, the `!` budget lets the read go on from a state that differs in BANG_SEEN and BANG_CNT only, or
ends it. -/
theorem State.telBang_cases (b : Byte) (s : State) :
    (∃ seen n, s.telBang b = State.enterTel { s with d0res := { s.d0res with bangSeen := seen }, bangCnt := n }) ∨
      s.telBang b = State.obtain { s with bangCnt := s.bangCnt + 1 } := by
  unfold State.telBang
  dsimp only
  split
  · split
    · exact .inr rfl
    · exact .inl ⟨s.d0res.bangSeen, s.bangCnt + 1, rfl⟩
  split
  · exact .inl ⟨true, 0, rfl⟩
  · exact .inl ⟨s.d0res.bangSeen, s.bangCnt, rfl⟩

theorem State.telByte_etx (s : State) : s.telByte chETX = s.telEtx := if_pos rfl

theorem State.telByte_stx (hs : s.d0res.stxSeen = false) : s.telByte chSTX = s.telStx.telBang chSTX := by
  rw [State.telByte, if_neg (by decide), if_pos ⟨rfl, hs⟩]

theorem State.telByte_of_full (hb : b ≠ chETX) (hs : b = chSTX → s.d0res.stxSeen = true) (hf : s.tbufFull = true) :
    s.telByte b = s.raiseResult .bufferOverflow := by
  rw [State.telByte, if_neg hb, if_neg fun h => by simp [hs h.1] at h, if_pos hf]

theorem State.telByte_of_room (hb : b ≠ chETX) (hs : b = chSTX → s.d0res.stxSeen = true) (hf : s.tbufFull = false) :
    s.telByte b = (s.telStore b).telBang b := by
  rw [State.telByte, if_neg hb, if_neg fun h => by simp [hs h.1] at h, hf]
  rfl

/-- What a byte does in the telegram read. -/
theorem State.telByte_cases (b : Byte) (s : State) :
    s.telByte b = s.telEtx ∨ s.telByte b = s.telStx.telBang b ∨ s.telByte b = s.raiseResult .bufferOverflow ∨
      s.telByte b = (s.telStore b).telBang b := by
  by_cases hb : b = chETX
  · subst hb
    exact .inl s.telByte_etx
  by_cases hs : b = chSTX ∧ s.d0res.stxSeen = false
  · obtain ⟨rfl, hs⟩ := hs
    exact .inr (.inl (State.telByte_stx hs))
  have hs' : b = chSTX → s.d0res.stxSeen = true := fun h => by simpa [h] using hs
  cases hf : s.tbufFull with
  | true => exact .inr (.inr (.inl (State.telByte_of_full hb hs' hf)))
  | false => exact .inr (.inr (.inr (State.telByte_of_room hb hs' hf)))

/-! ### The identification read -/

theorem State.identByte_of_no_slash (h0 : s.idLen = 0) (hb : b ≠ chSlash) :
    s.identByte b = s.raiseResult .invalidIdent := if_pos ⟨h0, hb⟩

theorem State.identByte_of_full (h0 : s.idLen = 0 → b = chSlash) (hf : s.ibufFull = true) :
    s.identByte b = s.raiseResult .noIdent := by
  rw [State.identByte, if_neg fun h => h.2 (h0 h.1), if_pos hf]

theorem State.identByte_lf (h0 : s.idLen ≠ 0) (hf : s.ibufFull = false) :
    s.identByte chLF = (s.appendIbuf chLF).endOfLine := by
  rw [State.identByte, if_neg fun h => h0 h.1, hf]
  rfl

theorem State.identByte_of_room (h0 : s.idLen = 0 → b = chSlash) (hf : s.ibufFull = false) (hb : b ≠ chLF) :
    s.identByte b = (s.appendIbuf b).enterIdent := by
  rw [State.identByte, if_neg fun h => h.2 (h0 h.1), hf, if_neg hb]
  rfl

/-- What a byte does in the identification read: the line goes on, or is complete, or the cycle ends with one of the two
results of a bad line. -/
theorem State.identByte_cases (b : Byte) (s : State) :
    s.identByte b = (s.appendIbuf b).enterIdent ∨ s.identByte b = (s.appendIbuf b).detectMode ∨
      ∃ u c, (u = s ∨ u = s.appendIbuf b) ∧ (c = .invalidIdent ∨ c = .noIdent) ∧
        s.identByte b = State.raiseResult c u := by
  unfold State.identByte State.endOfLine
  split
  · exact .inr (.inr ⟨s, _, .inl rfl, .inl rfl, rfl⟩)
  split
  · exact .inr (.inr ⟨s, _, .inl rfl, .inr rfl, rfl⟩)
  split
  · split
    · exact .inr (.inl rfl)
    · exact .inr (.inr ⟨_, _, .inr rfl, .inr rfl, rfl⟩)
  · exact .inl rfl

end Sys2Proof.Machine
end

section

/-! The engine never transmits NAK (O59): no request is TX(0x15), since the only byte of a sequence that is not fixed is
ZCHAR, which ModeDetect lets into an ACK as a rate digit only (spec/43_d0_engine.md R631, R673). -/

namespace Sys2Proof.Machine

variable {s t : State}

/-! ### Requests and results -/

theorem State.NakFree.of_not_cycle (h : .tx chNAK ∉ s.history) (he : s.eng ≠ .d0) : s.NakFree :=
  ⟨h, fun hd => absurd hd he⟩

theorem State.raiseResult_nakFree (h : .tx chNAK ∉ s.history) (c : ResultCode) : (s.raiseResult c).NakFree :=
  .of_not_cycle (by simpa using h) (by simp)

theorem not_mem_history_issue {r : Request} (h : .tx chNAK ∉ s.history) (hr : r ≠ .tx chNAK) :
    .tx chNAK ∉ (s.issue r).history := by
  simpa [State.issue, h] using hr.symm

theorem State.enterPhase_nakFree {ph : D0Phase} {r : Request} (h : .tx chNAK ∉ s.history) (hr : r ≠ .tx chNAK)
    (hz : ph = .ackTx → isRateDigit s.zchar = true) : (s.enterPhase ph r).NakFree :=
  ⟨not_mem_history_issue (s := { s with d0Phase := ph }) h hr, fun _ => hz⟩

/-- Sending a sequence without a NAK, and then what follows it. -/
theorem State.sendFrom_nakFree {ph : D0Phase} {seq : List Byte} {after : State → State} (h : .tx chNAK ∉ s.history)
    (hseq : chNAK ∉ seq) (hz : ph = .ackTx → isRateDigit s.zchar = true) (ha : (after s).NakFree) (k : Nat) :
    (s.sendFrom ph seq after k).NakFree := by
  by_cases hk : k < seq.length
  · rw [State.sendFrom_of_lt hk]
    refine State.enterPhase_nakFree h (fun e => hseq ?_) hz
    rw [← Request.tx.inj e]
    exact List.getElem_mem hk
  · rw [State.sendFrom_of_le (not_lt.1 hk)]
    exact ha

/-! ### Up to the telegram read -/

theorem State.sendSignon_nakFree (h : .tx chNAK ∉ s.history) (k : Nat) : (s.sendSignon k).NakFree :=
  State.sendFrom_nakFree (ph := .signonTx) (seq := signonSeq) (after := State.enterIdent) h (by decide) nofun
    (State.enterPhase_nakFree h nofun nofun) k

theorem State.sendWake_nakFree (h : .tx chNAK ∉ s.history) (k : Nat) : (s.sendWake k).NakFree := by
  unfold State.sendWake
  split
  · exact State.enterPhase_nakFree h (by decide) nofun
  · exact State.enterPhase_nakFree h nofun nofun

theorem State.afterSetbaud0_nakFree (h : .tx chNAK ∉ s.history) : s.afterSetbaud0.NakFree := by
  unfold State.afterSetbaud0
  split
  · exact State.sendWake_nakFree h 1
  · exact State.enterPhase_nakFree h nofun nofun

theorem chNAK_not_mem_ackSeq {z : Byte} (hz : isRateDigit z = true) : chNAK ∉ ackSeq z := by
  have hne : z ≠ chNAK := by
    rintro rfl
    exact absurd hz (by decide)
  simpa [ackSeq, chNAK] using hne.symm

theorem State.sendAck_nakFree (h : .tx chNAK ∉ s.history) (hz : isRateDigit s.zchar = true) (k : Nat) :
    (s.sendAck k).NakFree :=
  State.sendFrom_nakFree (after := State.enterAckWait) h (chNAK_not_mem_ackSeq hz) (fun _ => hz)
    (State.enterPhase_nakFree h nofun nofun) k

/-- A negotiated mode is detected on a fifth character that is a rate digit (spec/43_d0_engine.md R620). -/
theorem modeDetect_negotiated {c : List Byte} {m : Mode} {k : BitVec 3} (h : modeDetect c = .detected m k)
    (hm : m.isNegotiated = true) : isRateDigit (c.getD 4 0) = true := by
  by_contra hz
  rw [modeDetect, if_neg hz] at h
  split at h
  · cases h
  split at h
  · cases h; cases hm
  split at h
  · cases h; cases hm
  · cases h

theorem State.detectMode_nakFree (h : .tx chNAK ∉ s.history) : s.detectMode.NakFree := by
  unfold State.detectMode
  split
  · rename_i m k hd
    rw [State.negotiate_eq]
    unfold State.afterDetect
    split
    · exact State.enterPhase_nakFree h nofun nofun
    split
    · rename_i hm
      obtain ⟨h5, _⟩ := modeDetect_detected hd
      rw [Memory.firstBytes_length] at h5
      have hz := modeDetect_negotiated hd hm
      rw [Memory.firstBytes_getD (by omega)] at hz
      exact State.sendAck_nakFree (s := s.recordMode m k) h hz 0
    · exact State.enterPhase_nakFree h nofun nofun
  · exact State.raiseResult_nakFree h _

theorem State.identByte_nakFree (h : .tx chNAK ∉ s.history) (b : Byte) : (s.identByte b).NakFree := by
  rcases s.identByte_cases b with e | e | ⟨u, c, rfl | rfl, _, e⟩ <;> rw [e]
  · exact State.enterPhase_nakFree h nofun nofun
  · exact State.detectMode_nakFree h
  · exact State.raiseResult_nakFree h _
  · exact State.raiseResult_nakFree (s := s.appendIbuf b) h _

/-! ### The telegram read and what follows it -/

theorem State.sendSignoff_nakFree (h : .tx chNAK ∉ s.history) (k : Nat) : (s.sendSignoff k).NakFree :=
  State.sendFrom_nakFree (ph := .signoffTx) (seq := signoffSeq) (after := State.enterDrain) h (by decide) nofun
    (State.enterPhase_nakFree h nofun nofun) k

theorem State.signOff_nakFree (h : .tx chNAK ∉ s.history) : s.signOff.NakFree := by
  unfold State.signOff
  split
  · exact State.sendSignoff_nakFree h 0
  · exact State.raiseResult_nakFree h _

theorem State.obtain_nakFree (h : .tx chNAK ∉ s.history) : s.obtain.NakFree := by
  unfold State.obtain State.endOfTelegram
  dsimp only
  split
  · exact State.enterPhase_nakFree h nofun nofun
  · exact State.signOff_nakFree h

theorem State.telBang_nakFree (h : .tx chNAK ∉ s.history) (b : Byte) : (s.telBang b).NakFree := by
  rcases s.telBang_cases b with ⟨_, _, e⟩ | e <;> rw [e]
  · exact State.enterPhase_nakFree h nofun nofun
  · exact State.obtain_nakFree h

theorem State.telByte_nakFree (h : .tx chNAK ∉ s.history) (b : Byte) : (s.telByte b).NakFree := by
  rcases s.telByte_cases b with e | e | e | e <;> rw [e]
  · exact State.obtain_nakFree h
  · exact State.telBang_nakFree (s := s.telStx) h b
  · exact State.raiseResult_nakFree h _
  · exact State.telBang_nakFree (s := s.telStore b) h b

theorem State.telTimeout_nakFree (h : .tx chNAK ∉ s.history) : s.telTimeout.NakFree := by
  unfold State.telTimeout
  split
  · exact State.obtain_nakFree h
  · exact State.raiseResult_nakFree h _

/-! ### The phase table -/

theorem State.NakFree.d0Respond (h : s.NakFree) (he : s.eng = .d0) {a : Response} (ht : s.d0Respond a = some t) :
    t.NakFree := by
  have hs := h.sent
  unfold State.d0Respond at ht
  split at ht
  · cases ht
    exact State.raiseResult_nakFree hs _
  rcases State.d0Advance_cases ht with ⟨_, _, rfl⟩ | ⟨_, _, rfl⟩ | ⟨_, _, rfl⟩ | ⟨_, _, rfl⟩ | ⟨_, _, rfl⟩ |
    ⟨_, b, _, rfl⟩ | ⟨_, _, rfl⟩ | ⟨_, _, rfl⟩ | ⟨hp, _, rfl⟩ | ⟨_, _, rfl⟩ | ⟨_, _, rfl⟩ | ⟨_, b, _, rfl⟩ |
    ⟨_, _, rfl⟩ | ⟨_, c, _, rfl⟩ | ⟨_, _, rfl⟩ | ⟨_, _, rfl⟩ | ⟨_, _, rfl⟩
  · exact State.afterSetbaud0_nakFree hs
  · exact State.sendWake_nakFree hs _
  · exact State.enterPhase_nakFree hs nofun nofun
  · exact State.sendSignon_nakFree hs _
  · exact State.sendSignon_nakFree hs _
  · exact State.identByte_nakFree hs b
  · exact State.raiseResult_nakFree hs _
  · exact State.enterPhase_nakFree hs nofun nofun
  · exact State.sendAck_nakFree hs (h.ack_digit he hp) _
  · exact State.enterPhase_nakFree hs nofun nofun
  · exact State.enterPhase_nakFree hs nofun nofun
  · exact State.telByte_nakFree hs b
  · exact State.telTimeout_nakFree hs
  · exact State.signOff_nakFree hs
  · exact State.signOff_nakFree hs
  · exact State.sendSignoff_nakFree hs _
  · exact State.raiseResult_nakFree hs _

/-! ### The frame scanner -/

theorem State.failAdd_history (k : Nat) (s : State) : (s.failAdd k).history = s.history := by
  rcases s.failAdd_cases k with ⟨e, _⟩ | ⟨e, _⟩ <;> rw [e]
  rw [State.raiseResult_history]

/-- The frame scanner requests nothing while it consumes a byte. -/
theorem State.frByte_history (b : Byte) (s : State) : (s.frByte b).history = s.history := by
  unfold State.frByte
  split
  · rcases s.frHunt_cases b with ⟨_, e⟩ | ⟨_, e⟩ <;> rw [e]
    · rfl
    · exact State.failAdd_history _ _
  · rcases s.frBody_cases b with ⟨_, e⟩ | ⟨_, _, e⟩ | ⟨_, _, e⟩ | ⟨_, _, _, e⟩ <;> rw [e]
    · exact State.failAdd_history _ _
    · exact State.failAdd_history _ _
    · rfl
    · rfl
  · rcases s.frTail_cases b with ⟨_, e⟩ | ⟨_, e⟩ <;> rw [e]
    · exact State.failAdd_history _ _
    · rcases (s.storeTail b).checkTail_cases with ⟨_, _, _, e⟩ | ⟨_, _, _, e⟩ | ⟨_, _, e⟩ | ⟨_, _, e⟩ | ⟨_, _, e⟩ <;>
        rw [e]
      · exact State.raiseResult_history _ _
      · exact State.failAdd_history _ _
      · exact State.raiseResult_history _ _
      · exact State.failAdd_history _ _
      · rfl

/-- A scan that goes on requests RX, and one that has ended nothing. -/
theorem State.Scanning.frRespond_nakFree (hc : s.Scanning) (h : .tx chNAK ∉ s.history) {a : Response}
    (ht : s.frRespond a = some t) : t.NakFree := by
  rcases frRespond_some ht with ⟨_, rfl⟩ | ⟨_, rfl⟩ | ⟨b, _, rfl⟩
  · exact State.raiseResult_nakFree h _
  · exact State.raiseResult_nakFree h _
  · rw [← s.frByte_history b] at h
    rcases hc.frByte b with hc | hc
    · rw [State.frContinue, if_pos hc.eng]
      exact .of_not_cycle (not_mem_history_issue h nofun) (by simp [hc.eng])
    · rw [State.frContinue_of_ended (by simp [hc.eng])]
      exact .of_not_cycle h (by simp [hc.eng])

/-! ### Moves -/

theorem State.pushByte_history (d : Byte) (s : State) : (s.pushByte d).history = s.history :=
  (congrArg State.history (s.pushByte_outside d) :)

theorem State.Resting.commandRule_nakFree (hr : s.Resting) (h : .tx chNAK ∉ s.history) (i : Instr) :
    (commandRule i s).NakFree := by
  have he : s.eng ≠ .d0 := by simp [hr.eng]
  cases i with
  | nop | crcaInit | crcaByte d | crccInit | crccByte d | lrcInit | lrcByte d | bufClear | classify =>
    exact .of_not_cycle h he
  | bufPush d =>
    exact .of_not_cycle (by rwa [commandRule, State.pushByte_history]) (by simp [commandRule, (hr.pushByte d).eng])
  | frScan => exact .of_not_cycle (not_mem_history_issue h nofun) nofun
  | d0Cycle => exact State.enterPhase_nakFree h nofun nofun

theorem State.NakFree.hostWrite (h : s.NakFree) (hi : s.Inv) {addr : RegAddr} {v : Word}
    (ht : hostWrite addr v s = .next t) : t.NakFree := by
  cases hostWrite_effect ht with
  | refused _ _ e => subst e; exact ⟨h.sent, h.ack_digit⟩
  | command i _ hb e =>
    subst e
    exact ((hi.resting hb).congr (t := s.setRej false) rfl).commandRule_nakFree h.sent i
  | illegal _ e => subst e; exact State.raiseResult_nakFree (s := s.setRej false) h.sent _
  | config e => subst e; exact ⟨h.sent, h.ack_digit⟩
  | budget e => subst e; exact ⟨h.sent, h.ack_digit⟩
  | quiet e => rw [e]; exact ⟨h.sent, h.ack_digit⟩

theorem State.NakFree.respond (h : s.NakFree) (hi : s.Inv) {a : Response} (ht : s.respond a = .next t) :
    t.NakFree := by
  obtain ⟨r, _, _, hc⟩ := respond_next ht
  cases he : s.eng with
  | idle => simp [State.engineConsume, he] at hc
  | fr =>
    simp only [State.engineConsume, State.answered_eng, he] at hc
    exact (hi.scanning he).frRespond_nakFree h.sent hc
  | d0 =>
    simp only [State.engineConsume, State.answered_eng, he] at hc
    exact State.NakFree.d0Respond (s := s.answered) ⟨h.sent, h.ack_digit⟩ he hc

theorem State.NakFree.takeMove (h : s.NakFree) (hi : s.Inv) {m : Move} (ht : takeMove m s = .next t) : t.NakFree := by
  cases m with
  | hostWrite addr v => exact h.hostWrite hi ht
  | hostRead addr => cases ht; exact ⟨h.sent, h.ack_digit⟩
  | hostBufRead sp i => cases ht; exact ⟨h.sent, h.ack_digit⟩
  | respond a => exact h.respond hi ht
  | reset => cases ht; exact .of_not_cycle nofun nofun

/-- Settles O59: each move keeps the history free of NAK, and a step takes one move of the inbox or none. -/
theorem everyStepStaysFreeOfNak : Obligations.EveryStepStaysFreeOfNak := by
  intro s t hi h ht
  rcases step_cases ht with ⟨_, rfl⟩ | ⟨m, rest, _, ht⟩
  · exact h
  · exact State.NakFree.takeMove (s := { s with inbox := rest }) ⟨h.sent, h.ack_digit⟩ (hi.congr rfl) ht

end Sys2Proof.Machine
end

section

/-! The cycle's single steps: its start (O41), an IOERR (O42), the telegram read (O48 to O51) and the block check
(O52). -/

namespace Sys2Proof.Machine

variable {s : State} {b : Byte}

/-- Settles O41: the rule of D0_CYCLE run once on the accepted state. -/
theorem cycleStartsAtTheSlowestRate : Obligations.CycleStartsAtTheSlowestRate :=
  ⟨decodeCommand_encode .d0Cycle, operandRefused (by decide), fun _ hb => exec_of_idle .d0Cycle hb⟩

/-- Settles O42: every request but WAIT admits IOERR, which ends a cycle in any phase. -/
theorem cycleEndsOnAnyIoError : Obligations.CycleEndsOnAnyIoError := by
  intro s ph r h hr
  cases r with
  | wait ms => exact absurd rfl (hr ms)
  | rx | tx b | setbaud k | flush | drain => exact respond_ioerr_cycle h rfl

/-! ### The telegram read -/

theorem respond_byte_tel (h : s.CycleWaits .tel .rx) (b : Byte) :
    takeMove (.respond (.byte b)) s = .next (s.answered.telByte b) :=
  respond_cycle h rfl nofun (by simp [State.d0Advance, h.phase])

theorem respond_timeout_tel (h : s.CycleWaits .tel .rx) :
    takeMove (.respond .timeout) s = .next s.answered.telTimeout :=
  respond_cycle h rfl nofun (by simp [State.d0Advance, h.phase])

/-- The read goes on in its phase. -/
theorem State.enterTel_of_tel (hp : s.d0Phase = .tel) : s.enterTel = s.requested .rx := by
  rw [State.enterTel, State.enterPhase_eq_requested, ← hp]

/-- The end of the read in a frame leads to the block check (spec/43_d0_engine.md R660, R661). -/
theorem State.obtain_framed (hs : s.d0res.stxSeen = true) (he : s.d0res.etxSeen = true) :
    s.obtain = State.enterPhase .bccRd .rx
      { s with d0res := { s.d0res with obtained := true }, bcc := { s.bcc with lrcCalc := lrcFinish s.lrc } } :=
  if_pos (by rw [hs, he]; rfl)

/-- The end of the read without both markers leads to the sign-off (spec/43_d0_engine.md R660, R661). -/
theorem State.obtain_unframed (h : s.d0res.stxSeen = false ∨ s.d0res.etxSeen = false) :
    s.obtain = State.signOff
      { s with d0res := { s.d0res with obtained := true }, bcc := { s.bcc with lrcCalc := lrcFinish s.lrc } } :=
  if_neg (by rcases h with h | h <;> simp [h])

/-! ### The `!` budget after a byte of the telegram read (spec/43_d0_engine.md R653). -/

theorem State.telBang_of_unseen (s : State) (hp : s.d0Phase = .tel) (hs : s.d0res.bangSeen = false) (hb : b ≠ chBang) :
    s.telBang b = s.requested .rx := by
  rw [State.telBang, hs, if_neg hb]
  exact State.enterTel_of_tel hp

theorem State.telBang_first (s : State) (hp : s.d0Phase = .tel) (hs : s.d0res.bangSeen = false) :
    s.telBang chBang =
      ({ s with d0res := { s.d0res with bangSeen := true }, bangCnt := 0 } : State).requested .rx := by
  rw [State.telBang, hs]
  exact State.enterTel_of_tel hp

theorem State.telBang_of_left (s : State) (b : Byte) (hp : s.d0Phase = .tel) (hs : s.d0res.bangSeen = true)
    (hn : s.bangCnt + 1 ≠ s.cfg.bangBudget) :
    s.telBang b = ({ s with bangCnt := s.bangCnt + 1 } : State).requested .rx := by
  rw [State.telBang, if_pos hs, if_neg (by exact hn)]
  exact State.enterTel_of_tel hp

theorem State.telBang_of_spent (s : State) (b : Byte) (he : s.d0res.etxSeen = false) (hs : s.d0res.bangSeen = true)
    (hn : s.bangCnt + 1 = s.cfg.bangBudget) :
    s.telBang b = State.signOff
      { s with
        bangCnt := s.bangCnt + 1
        d0res := { s.d0res with obtained := true }
        bcc := { s.bcc with lrcCalc := lrcFinish s.lrc } } := by
  rw [State.telBang, if_pos hs, if_pos (by exact hn)]
  exact State.obtain_unframed (.inr he)

/-- Settles O48: the first STX, before a `!` and within a running `!` budget. -/
theorem firstStxSeedsTheLrc : Obligations.FirstStxSeedsTheLrc := by
  intro s h hstx
  have hstep : takeMove (.respond (.byte chSTX)) s = .next (s.answered.telStx.telBang chSTX) :=
    (respond_byte_tel h _).trans (congrArg _ (State.telByte_stx hstx))
  exact ⟨fun hbang => hstep.trans (congrArg _ (s.answered.telStx.telBang_of_unseen h.phase hbang (by decide))),
    fun hbang hleft => hstep.trans (congrArg _ (s.answered.telStx.telBang_of_left _ h.phase hbang hleft))⟩

/-- Settles O49: the ETX of a frame and the ETX of a telegram without STX. -/
theorem etxEndsTheTelegram : Obligations.EtxEndsTheTelegram := by
  intro s h
  have hstep : takeMove (.respond (.byte chETX)) s = .next s.answered.telEtx :=
    (respond_byte_tel h _).trans (congrArg _ s.answered.telByte_etx)
  refine ⟨fun hstx => ?_, fun hstx => ?_⟩
  · rw [hstep, State.telEtx, State.answered_d0res, if_pos hstx]
    exact congrArg _ (State.obtain_framed hstx rfl)
  · rw [hstep, State.telEtx, State.answered_d0res, if_neg (by simp [hstx])]
    exact congrArg _ (State.obtain_unframed (.inl hstx))

/-- Settles O50: the full buffer, and a stored byte before, at and after the first `!`. -/
theorem telegramBytesAreStoredAndFolded : Obligations.TelegramBytesAreStoredAndFolded := by
  rintro s _ b h hetx hstx rfl
  have hstep (hroom : s.bufLen.toNat ≠ s.cfg.capacity) :
      takeMove (.respond (.byte b)) s = .next ((s.answered.telStore b).telBang b) :=
    (respond_byte_tel h b).trans (congrArg _ (State.telByte_of_room hetx hstx (decide_eq_false hroom)))
  refine ⟨fun hfull => ?full, fun hroom hbang hb => ?plain, fun hroom hbang hb => ?first,
    fun hroom hbang hleft => ?left⟩
  case full =>
    rw [respond_byte_tel h, State.telByte_of_full (s := s.answered) hetx hstx (decide_eq_true hfull),
      State.answered_raiseResult _ (by simp [h.eng])]
  case plain => exact (hstep hroom).trans (congrArg _ ((s.answered.telStore b).telBang_of_unseen h.phase hbang hb))
  case first =>
    subst hb
    exact (hstep hroom).trans (congrArg _ (State.telBang_first _ h.phase hbang))
  case left => exact (hstep hroom).trans (congrArg _ ((s.answered.telStore b).telBang_of_left b h.phase hbang hleft))

/-- Settles O51: a TIMEOUT before and after a `!`, and the byte that uses the budget up, stored or a first STX. -/
theorem bangEndsAnUnframedTelegram : Obligations.BangEndsAnUnframedTelegram := by
  intro s h hetx
  refine ⟨fun hbang => ?before, fun hbang => ?after, ?stored, ?stx⟩
  case before =>
    rw [respond_timeout_tel h, State.telTimeout, State.answered_d0res, hbang,
      ← State.answered_raiseResult _ (by simp [h.eng])]
    rfl
  case after =>
    rw [respond_timeout_tel h, State.telTimeout, State.answered_d0res, if_pos hbang]
    exact congrArg _ (State.obtain_unframed (.inr hetx))
  case stored =>
    rintro b _ hbang hspent hb hstx hroom rfl
    rw [respond_byte_tel h, State.telByte_of_room (s := s.answered) hb hstx (decide_eq_false hroom)]
    exact congrArg _ ((s.answered.telStore b).telBang_of_spent b hetx hbang hspent)
  case stx =>
    rintro _ hbang hspent hstx rfl
    rw [respond_byte_tel h, State.telByte_stx (s := s.answered) hstx]
    exact congrArg _ (s.answered.telStx.telBang_of_spent _ hetx hbang hspent)

/-! ### The block check -/

/-- Settles O52: the two rows of the block check in the phase table. -/
theorem blockCheckSetsTheVerdict : Obligations.BlockCheckSetsTheVerdict := fun s h =>
  ⟨fun c => respond_cycle (t := s.answered.bccByte c) h rfl nofun (by simp [State.d0Advance, h.phase]),
    respond_cycle (t := s.answered.bccTimeout) h rfl nofun (by simp [State.d0Advance, h.phase])⟩

end Sys2Proof.Machine
end

section

/-! The identification read (O44), ModeDetect (O45) and the negotiation after a complete line (O46). -/

namespace Sys2Proof.Machine

variable {s : State} {b z : Byte} {cs : List Byte}

/-! ### The identification read -/

theorem respond_byte_ident (h : s.CycleWaits .ident .rx) (b : Byte) :
    takeMove (.respond (.byte b)) s = .next (s.answered.identByte b) :=
  respond_cycle h rfl nofun (by simp [State.d0Advance, h.phase])

theorem respond_timeout_ident (h : s.CycleWaits .ident .rx) :
    takeMove (.respond .timeout) s = .next (s.ended .noIdent) :=
  respond_cycle h rfl nofun (by simp [State.d0Advance, h.phase, State.answered_raiseResult, h.eng])

theorem State.endOfLine_of_cr (h2 : 2 ≤ s.idLen.toNat) (hcr : s.ibuf.read (s.idLen.toNat - 2) = chCR) :
    s.endOfLine = s.detectMode := if_pos ⟨h2, hcr⟩

theorem State.endOfLine_of_no_cr (hcr : s.ibuf.read (s.idLen.toNat - 2) ≠ chCR) :
    s.endOfLine = s.raiseResult .noIdent := if_neg fun h => hcr h.2

theorem Config.Params.identCap_range {c : Config.Params} (h : c.wf = true) : 8 ≤ c.identCap ∧ c.identCap ≤ 65535 := by
  simp only [Config.Params.wf, Bool.and_eq_true, decide_eq_true_eq] at h
  omega

/-- After an LF is stored, the byte before it is the one that was last. -/
theorem State.appendIbuf_before_last (s : State) (b : Byte) (h0 : s.idLen ≠ 0) (hlt : s.idLen.toNat < 65535) :
    2 ≤ (s.appendIbuf b).idLen.toNat ∧ (s.appendIbuf b).idLen.toNat - 2 = s.idLen.toNat - 1 ∧
      (s.appendIbuf b).ibuf.read (s.idLen.toNat - 1) = s.ibuf.read (s.idLen.toNat - 1) := by
  have hlen := State.appendIbuf_idLen_toNat (s := s) b hlt
  have hpos : 0 < s.idLen.toNat := Nat.pos_of_ne_zero fun e => h0 (BitVec.eq_of_toNat_eq e)
  exact ⟨by omega, by omega, Memory.read_write_ne (by omega) _ _⟩

/-- Settles O44: the cases of a received byte, with the LF's two. -/
theorem identReadStoresOneLine : Obligations.IdentReadStoresOneLine := by
  rintro s _ b h hwf hle rfl
  obtain ⟨h8, hcap⟩ := Config.Params.identCap_range hwf
  have he : s.eng ≠ .idle := by simp [h.eng]
  have hlt (hroom : s.idLen.toNat ≠ s.cfg.identCap) : s.idLen.toNat < 65535 :=
    (lt_of_le_of_ne hle hroom).trans_le hcap
  refine ⟨respond_timeout_ident h, fun h0 hb => ?first, fun hfull => ?full, fun hroom h0 hb => ?store,
    fun hroom h0 hb hcr => ?bad, fun hroom h0 hb hcr => ?line⟩
  case first =>
    rw [respond_byte_ident h, State.identByte_of_no_slash (s := s.answered) h0 hb, State.answered_raiseResult _ he]
  case full =>
    have h0 : s.answered.idLen = 0 → b = chSlash := fun e => by
      rw [State.answered_idLen] at e
      rw [e] at hfull
      exact absurd (hfull ▸ h8) (by decide)
    rw [respond_byte_ident h, State.identByte_of_full h0 (decide_eq_true hfull), State.answered_raiseResult _ he]
  case store =>
    rw [respond_byte_ident h, State.identByte_of_room (s := s.answered) h0 (decide_eq_false hroom) hb, State.enterIdent,
      State.enterPhase_eq_requested, ← h.phase]
    rfl
  case bad =>
    subst hb
    obtain ⟨_, hi, hr⟩ := s.answered.appendIbuf_before_last chLF h0 (hlt hroom)
    rw [respond_byte_ident h, State.identByte_lf (s := s.answered) h0 (decide_eq_false hroom),
      State.endOfLine_of_no_cr (by rw [hi, hr]; exact hcr), State.raiseResult_of_running _ (by exact he)]
    rfl
  case line =>
    subst hb
    obtain ⟨h2, hi, hr⟩ := s.answered.appendIbuf_before_last chLF h0 (hlt hroom)
    rw [respond_byte_ident h, State.identByte_lf (s := s.answered) h0 (decide_eq_false hroom),
      State.endOfLine_of_cr h2 (by rw [hi, hr]; exact hcr)]
    rfl

/-! ### ModeDetect -/

theorem isRateDigit_iff (z : Byte) : isRateDigit z = true ↔ 0x30 ≤ z.toNat ∧ z.toNat ≤ 0x36 := by
  simp [isRateDigit, BitVec.le_def]

theorem isRateLetter_iff (z : Byte) : isRateLetter z = true ↔ 0x41 ≤ z.toNat ∧ z.toNat ≤ 0x47 := by
  simp [isRateLetter, BitVec.le_def]

theorem isPrintable_iff (z : Byte) : isPrintable z = true ↔ 0x20 ≤ z.toNat ∧ z.toNat ≤ 0x7E := by
  simp [isPrintable, BitVec.le_def]

/-- A rate code is the distance of its character from the first of its range. -/
theorem sub_setWidth_eq_ofNat {z c : Byte} (h : c.toNat ≤ z.toNat) :
    (z - c).setWidth 3 = BitVec.ofNat 3 (z.toNat - c.toNat) := by
  apply BitVec.eq_of_toNat_eq
  rw [BitVec.toNat_setWidth, BitVec.toNat_sub_of_le h, BitVec.toNat_ofNat]

/-- A character at a place of the line, as ModeDetect tests for it. -/
theorem hasByteAt_iff (cs : List Byte) (n : Nat) (c : Byte) :
    (decide (n + 1 ≤ cs.length) && cs.getD n 0 == c) = true ↔ cs[n]? = some c := by
  rw [Bool.and_eq_true, decide_eq_true_eq, beq_iff_eq, List.getD_eq_getElem?_getD, List.getElem?_eq_some_iff]
  constructor
  · rintro ⟨hn, e⟩
    exact ⟨hn, by simpa [List.getElem?_eq_getElem hn] using e⟩
  · rintro ⟨hn, e⟩
    exact ⟨hn, by simpa [List.getElem?_eq_getElem hn] using e⟩

theorem modeDetect_of_short (h : cs.length < 5) : modeDetect cs = .raises .invalidIdent := if_pos h

/-- ModeDetect on a line of five characters or more, by the class of the fifth (spec/43_d0_engine.md R620). -/
theorem modeDetect_of_fifth (hz : cs[4]? = some z) : modeDetect cs =
    if isRateDigit z then
      if cs[5]? = some chBackslash then
        if cs[6]? = some 0x32 then .raises .protocolUnsupported else .detected .e ((z - 0x30).setWidth 3)
      else .detected .c ((z - 0x30).setWidth 3)
    else if isRateLetter z then .detected .b ((z - 0x41).setWidth 3)
    else if isPrintable z then .detected .a 0
    else .raises .invalidIdent := by
  have hlen : ¬cs.length < 5 := not_lt.2 (List.getElem?_eq_some_iff.1 hz).1
  have hget : cs.getD 4 0 = z := by rw [List.getD_eq_getElem?_getD, hz]; rfl
  rw [modeDetect, if_neg hlen, hget]
  simp only [hasByteAt_iff]

/-- Settles O45: the classes of the fifth character as ranges of its code. -/
theorem modeDetectFollowsTheFifthCharacter : Obligations.ModeDetectFollowsTheFifthCharacter := by
  refine fun cs => ⟨modeDetect_of_short, fun z hz => ?_⟩
  rw [modeDetect_of_fifth hz]
  refine ⟨fun hlo hhi => ?digit, fun hlo hhi => ?letter, fun hlo hhi hd hl => ?printable, fun hp => ?other⟩
  case digit =>
    have hk : (z - 0x30).setWidth 3 = BitVec.ofNat 3 (z.toNat - 0x30) := sub_setWidth_eq_ofNat hlo
    rw [if_pos ((isRateDigit_iff z).2 ⟨hlo, hhi⟩), hk]
    exact ⟨fun h5 => if_neg h5, fun h5 h6 => (if_pos h5).trans (if_pos h6), fun h5 h6 => (if_pos h5).trans (if_neg h6)⟩
  case letter =>
    have hk : (z - 0x41).setWidth 3 = BitVec.ofNat 3 (z.toNat - 0x41) := sub_setWidth_eq_ofNat hlo
    rw [if_neg (by rw [isRateDigit_iff]; omega), if_pos ((isRateLetter_iff z).2 ⟨hlo, hhi⟩), hk]
  case printable =>
    rw [if_neg (by rwa [isRateDigit_iff]), if_neg (by rwa [isRateLetter_iff]),
      if_pos ((isPrintable_iff z).2 ⟨hlo, hhi⟩)]
  case other =>
    rw [if_neg (by rw [isRateDigit_iff]; omega), if_neg (by rw [isRateLetter_iff]; omega),
      if_neg (by rw [isPrintable_iff]; omega)]

/-! ### The negotiation -/

/-- A line stored before the terminator it got last. -/
theorem State.firstBytes_before_last (s : State) (b : Byte) (h0 : s.idLen ≠ 0) (hlt : s.idLen.toNat < 65535) :
    (s.appendIbuf b).ibuf.firstBytes ((s.appendIbuf b).idLen.toNat - 2) =
      s.ibuf.firstBytes (s.idLen.toNat - 1) := by
  obtain ⟨_, hi, _⟩ := s.appendIbuf_before_last b h0 hlt
  rw [hi]
  exact Memory.firstBytes_congr fun i hlt => Memory.read_write_ne (by omega) _ _

theorem State.detectMode_of_raises {code : ResultCode}
    (hd : modeDetect (s.ibuf.firstBytes (s.idLen.toNat - 2)) = .raises code) :
    s.detectMode = s.raiseResult code := by
  rw [State.detectMode, hd]

theorem State.detectMode_of_detected {m : Mode} {k : BitVec 3}
    (hd : modeDetect (s.ibuf.firstBytes (s.idLen.toNat - 2)) = .detected m k) :
    s.detectMode = (s.recordMode m k).afterDetect m := by
  rw [State.detectMode, hd]
  rfl

/-- Settles O46: the completed line of O44 is given to ModeDetect, and the mode decides how the cycle goes on. -/
theorem completeLineNegotiatesTheMode : Obligations.CompleteLineNegotiatesTheMode := by
  rintro s _ h hbuf hroom h0 hcr rfl
  have hlt : s.idLen.toNat < 65535 := (lt_of_le_of_ne hbuf.idLen_le hroom).trans_le hbuf.capacities_le.2
  obtain ⟨-, -, -, -, -, hcomplete⟩ := identReadStoresOneLine s _ chLF h hbuf.params hbuf.idLen_le rfl
  have hstep : takeMove (.respond (.byte chLF)) s = .next (s.answered.appendIbuf chLF).detectMode :=
    hcomplete hroom h0 rfl hcr
  have hline := s.answered.firstBytes_before_last chLF h0 hlt
  refine ⟨fun code hd => ?_, fun m k w hd hw => ?_⟩
  · rw [hstep, State.detectMode_of_raises (by rw [hline]; exact hd), State.raiseResult_of_running _ (by simp [h.eng])]
    rfl
  · have hz : (s.answered.appendIbuf chLF).ibuf.read 4 = s.ibuf.read 4 := by
      obtain ⟨h5, _⟩ := modeDetect_detected hd
      rw [Memory.firstBytes_length] at h5
      exact Memory.read_write_ne (by simp; omega) _ _
    rw [hstep, State.detectMode_of_detected (by rw [hline]; exact hd), State.recordMode, hz, hw]
    refine ⟨?_, ?_, ?_⟩
    · rintro rfl
      rfl
    · rintro rfl
      rfl
    · rintro (rfl | rfl | rfl) <;> rfl

end Sys2Proof.Machine
end

section

/-! The cycle's request sequences: the wake-up and the sign-on (O43), the ACK (O47) and the sign-off with the terminal
result (O53). -/

namespace Sys2Proof.Machine

variable {s : State}

theorem State.enterPhase_waits (he : s.eng = .d0) (ph : D0Phase) (r : Request) : (s.enterPhase ph r).CycleWaits ph r :=
  ⟨he, rfl, rfl⟩

theorem State.sent_eng (ph : D0Phase) (seq : List Byte) (k : Nat) (s : State) : (s.sent ph seq k).eng = s.eng := rfl

/-- A request answered right after it was issued. -/
theorem respond_enterPhase {t : State} {ph : D0Phase} {r : Request} {a : Response} (he : s.eng = .d0)
    (ha : admits r a = true) (hne : a ≠ .ioerr) (ht : (s.enterPhase ph r).answered.d0Advance a = some t) :
    takeMove (.respond a) (s.enterPhase ph r) = .next t :=
  respond_cycle (State.enterPhase_waits he ph r) ha hne ht

/-! ### The wake-up and the sign-on -/

/-- The answers to the wake-up's requests, if it is enabled. -/
def State.wakeAnswers (s : State) : List Response :=
  if s.wakeEn then List.replicate s.cfg.wakeCount Response.ok ++ [Response.done] else []

/-- The wake-up's requests, if it is enabled (spec/43_d0_engine.md R605). -/
def State.wakeRequests (s : State) : List Request :=
  if s.wakeEn then List.replicate s.cfg.wakeCount (Request.tx 0x00) ++ [Request.wait s.cfg.tSettleMs] else []

/-- The sign-on's requests and the first one of the identification read (spec/43_d0_engine.md R606). -/
def signonRequests : List Request := [.flush, .tx 0x2F, .tx 0x3F, .tx 0x21, .tx 0x0D, .tx 0x0A, .rx]

/-- Answering the remaining wake-up bytes requests the settle wait after them (spec/43_d0_engine.md R605). -/
theorem respondAll_sendWake (n : Nat) {k : Nat} (hk : k + n = s.cfg.wakeCount + 1) (he : s.eng = .d0) :
    ∃ u : State, respondAll (List.replicate n .ok) (s.sendWake k) = .next u.enterSettle ∧
      u.history = s.history ++ List.replicate n (Request.tx 0x00) ∧ u.eng = .d0 ∧ u.cfg = s.cfg := by
  induction n generalizing s k with
  | zero =>
    have hsend : s.sendWake k = s.enterSettle := if_neg (by omega)
    exact ⟨s, congrArg _ hsend, (List.append_nil _).symm, he, rfl⟩
  | succ n ih =>
    have hsend : s.sendWake k = State.enterPhase .wakeTx (.tx chNUL) { s with seqK := k } := if_pos (by omega)
    have hstep : takeMove (.respond .ok) (s.sendWake k) = .next ((s.sendWake k).answered.sendWake (k + 1)) := by
      rw [hsend]
      exact respond_enterPhase he rfl nofun rfl
    obtain ⟨u, hrun, hh, hu, hc⟩ := ih (s := (s.sendWake k).answered) (k := k + 1) (by rw [hsend]; simp; omega)
      (by rw [hsend]; exact he)
    refine ⟨u, respondAll_step hstep hrun, ?_, hu, ?_⟩
    · rw [hh, hsend]
      simp [List.replicate_succ]
    · rw [hc, hsend]
      rfl

/-- The flush and the sign-on (spec/43_d0_engine.md R606). -/
theorem respondAll_enterFlush (he : s.eng = .d0) :
    ∃ u : State, respondAll (List.replicate 6 .ok) s.enterFlush = .next u ∧
      u.history = s.history ++ signonRequests ∧
      u.CycleWaits .ident .rx := by
  have hstep : takeMove (.respond .ok) s.enterFlush = .next (s.enterFlush.answered.sendSignon 0) :=
    respond_enterPhase he rfl nofun rfl
  have heng : s.enterFlush.answered.eng = .d0 := by simpa [State.enterFlush] using he
  have hrun := respondAll_sendFrom signon_sendsOnOk (fun _ _ _ => rfl) 4 0 s.enterFlush.answered rfl heng
  refine ⟨_, respondAll_step hstep hrun, ?_, State.enterPhase_waits ((State.sent_eng _ _ _ _).trans heng) _ _⟩
  simp [State.enterIdent, State.sent, State.enterFlush, signonSeq, signonRequests]

/-- From the answer to SETBAUD(0) on: the wake-up only when it is enabled (spec/43_d0_engine.md R604 to R606). -/
theorem respondAll_afterSetbaud0 (he : s.eng = .d0) :
    ∃ u : State, respondAll (s.wakeAnswers ++ List.replicate 6 .ok) s.afterSetbaud0 = .next u ∧
      u.history = s.history ++ s.wakeRequests ++ signonRequests ∧ u.CycleWaits .ident .rx := by
  unfold State.afterSetbaud0 State.wakeAnswers State.wakeRequests
  split
  · obtain ⟨u, hrun, hh, hu, hc⟩ := respondAll_sendWake s.cfg.wakeCount (Nat.add_comm 1 _) he
    have hstep : takeMove (.respond .done) u.enterSettle = .next u.enterSettle.answered.enterFlush :=
      respond_enterPhase hu rfl nofun rfl
    obtain ⟨v, hrun', hh', hv⟩ := respondAll_enterFlush (s := u.enterSettle.answered) hu
    refine ⟨v, ?_, ?_, hv⟩
    · rw [List.append_assoc, respondAll_append hrun, List.singleton_append, respondAll_cons hstep, hrun']
    · rw [hh']
      simp [State.enterSettle, hh, hc]
  · rw [List.append_nil]
    exact respondAll_enterFlush he

/-- Settles O43: D0_CYCLE requests SETBAUD(0), and its answer starts the rest. -/
theorem cycleWakesAndSignsOnInOrder : Obligations.CycleWakesAndSignsOnInOrder := by
  intro s hb
  have hstep : takeMove (.respond .ok) (s.setRej false).startCycle =
      .next (s.setRej false).startCycle.answered.afterSetbaud0 := 
    respond_enterPhase rfl rfl nofun rfl
  obtain ⟨u, hrun, hh, hu⟩ := respondAll_afterSetbaud0 (s := (s.setRej false).startCycle.answered) rfl
  exact ⟨_, u, exec_of_idle .d0Cycle hb, respondAll_step hstep hrun, hh, hu.eng, hu.phase, hu.pending⟩

/-! ### The ACK -/

/-- The wait and the switch after the ACK (spec/43_d0_engine.md R631). -/
theorem respondAll_enterAckWait (he : s.eng = .d0) :
    ∃ t : State, respondAll [.done, .ok] s.enterAckWait = .next t ∧
      t.history = s.history ++ ([.wait s.cfg.tAckMs, .setbaud s.rateCode, .rx] : List Request) ∧
      t.CycleWaits .tel .rx := by
  have hwait : takeMove (.respond .done) s.enterAckWait = .next s.enterAckWait.answered.enterBaudC :=
    respond_enterPhase he rfl nofun rfl
  have hw : s.enterAckWait.answered.eng = .d0 := by simpa [State.enterAckWait] using he
  have hswitch : takeMove (.respond .ok) s.enterAckWait.answered.enterBaudC =
      .next s.enterAckWait.answered.enterBaudC.answered.enterTel := respond_enterPhase hw rfl nofun rfl
  have hb : s.enterAckWait.answered.enterBaudC.answered.eng = .d0 := by simpa [State.enterBaudC] using hw
  refine ⟨_, respondAll_step hwait (respondAll_step hswitch rfl), ?_, State.enterPhase_waits hb _ _⟩
  simp [State.enterTel, State.enterBaudC, State.enterAckWait]

/-- Settles O47: the answered first byte of the ACK leads to the other five, the wait and the switch; in mode B the
answered switch leads to the telegram read. -/
theorem ackThenWaitThenSwitch : Obligations.AckThenWaitThenSwitch := by
  refine ⟨fun s h hk => ?_, fun s h => ?_⟩
  · have hfirst : takeMove (.respond .ok) s = .next (s.answered.sendAck 1) :=
      respond_cycle h rfl nofun (by simp [State.d0Advance, h.phase, hk])
    have hbytes := respondAll_sendFrom ack_sendsOnOk (fun _ _ e => congrArg ackSeq e) 4 1 s.answered rfl h.eng
    obtain ⟨t, hrun, hh, ht⟩ :=
      respondAll_enterAckWait (s := s.answered.sent .ackTx (ackSeq s.answered.zchar) 1) h.eng
    refine ⟨t, respondAll_step hfirst ((respondAll_append hbytes).trans hrun), ?_, ht.phase, ht.eng, ht.pending⟩
    rw [hh]
    simp [State.sent, ackSeq]
  · exact respond_cycle (t := s.answered.enterTel) h rfl nofun (by simp [State.d0Advance, h.phase])

/-! ### The sign-off -/

/-- The result of a finished cycle as a test of the verdict (spec/43_d0_engine.md R671). -/
theorem Verdict.result_eq (v : Verdict) : v.result = if v = .failed then .lrcMismatch else .ok := by
  cases v <;> rfl

theorem State.terminal_eq_ended (he : s.eng = .d0) : s.terminal = s.ended s.d0res.verdict.result :=
  State.raiseResult_of_running _ (by simp [he])

/-- A finished cycle keeps its telegram, whatever the verdict (spec/60_exceptions.md R703). -/
theorem State.terminal_bufLen (he : s.eng = .d0) : s.terminal.bufLen = s.bufLen := by
  rw [State.terminal_eq_ended he, Verdict.result_eq]
  split <;> rfl

/-- The sign-off of a negotiated mode and its drain (spec/43_d0_engine.md R670). -/
theorem respondAll_sendSignoff (he : s.eng = .d0) :
    ∃ u : State, respondAll (List.replicate 7 .ok) (s.sendSignoff 0) = .next u.terminal ∧ u.eng = .d0 ∧
      u.bufLen = s.bufLen ∧ u.tbuf = s.tbuf ∧ u.d0res = s.d0res ∧
      u.history = s.history ++ (signoffSeq.map .tx ++ [Request.drain]) := by
  have hbytes := respondAll_sendFrom signoff_sendsOnOk (fun _ _ _ => rfl) 5 0 s rfl he
  have hdrain : takeMove (.respond .ok) (s.sent .signoffTx signoffSeq 0).enterDrain =
      .next (s.sent .signoffTx signoffSeq 0).enterDrain.answered.terminal := respond_enterPhase he rfl nofun rfl
  refine ⟨_, (respondAll_append (bs := [.ok]) hbytes).trans (respondAll_step hdrain rfl), he, rfl, rfl, rfl, ?_⟩
  simp [State.sent, State.enterDrain, signoffSeq]

/-- Settles O53: the terminal result at once, or after the six sign-off bytes and the drain. -/
theorem signOffThenTerminalResult : Obligations.SignOffThenTerminalResult := by
  rintro s _ he - rfl
  rw [← Verdict.result_eq]
  refine ⟨fun hm => ?_, fun hm => ?_⟩
  · have hn : s.d0res.mode.isNegotiated = false := by rcases hm with hm | hm | hm <;> rw [hm] <;> rfl
    rw [State.signOff, hn]
    exact State.terminal_eq_ended he
  · have hn : s.d0res.mode.isNegotiated = true := by rcases hm with hm | hm | hm <;> rw [hm] <;> rfl
    obtain ⟨u, hrun, hu, hl, ht, hd, hh⟩ := respondAll_sendSignoff he
    have hend := State.terminal_eq_ended hu
    rw [State.signOff, if_pos hn]
    refine ⟨_, hrun, ?_, ?_, ?_, ?_, (State.terminal_bufLen hu).trans hl, ?_, ?_, ?_⟩
    all_goals rw [hend]
    exacts [congrArg (fun r => r.verdict.result) hd, rfl, rfl, rfl, ht, hd, hh]

end Sys2Proof.Machine
end

section

/-! A frame STX body ETX has the XOR of its bytes as block check (O54). -/

namespace Sys2Proof.Machine

variable {o s : State} {b : Byte} {c rest : List Byte}

/-! ### What a cycle has read of a frame -/

/-- The LRC right after the first STX (spec/43_d0_engine.md R650). -/
def State.stxSeed (s : State) : Byte := if s.cfg.lrcStxIncluded then 0xFF ^^^ 0x02 else 0xFF

/-- The cycle that had read no STX in o has now read one and, after it, the bytes c of the body. -/
structure State.Framed (o s : State) (c : List Byte) : Prop where
  waits : s.CycleWaits .tel .rx
  buffers : s.BufferInv
  cfg : s.cfg = o.cfg
  stxSeen : s.d0res.stxSeen = true
  telegram : s.telegram = o.telegram ++ c
  lrc : s.lrc = c.foldl lrcStep o.stxSeed

/-- The bytes that follow leave the `!` budget unused (spec/43_d0_engine.md R653). -/
def State.BangAllows (s : State) (rest : List Byte) : Prop :=
  (s.d0res.bangSeen = true → s.bangCnt + rest.length < s.cfg.bangBudget) ∧
    (s.d0res.bangSeen = false →
      ∀ pre post, rest = pre ++ chBang :: post → chBang ∉ pre → post.length < s.cfg.bangBudget)

theorem State.BangAllows.of_seen (hs : s.d0res.bangSeen = true) (h : s.bangCnt + rest.length < s.cfg.bangBudget) :
    s.BangAllows rest :=
  ⟨fun _ => h, fun e => absurd (hs.symm.trans e) nofun⟩

theorem State.BangAllows.of_unseen (hs : s.d0res.bangSeen = false)
    (h : ∀ pre post, rest = pre ++ chBang :: post → chBang ∉ pre → post.length < s.cfg.bangBudget) :
    s.BangAllows rest :=
  ⟨fun e => absurd (hs.symm.trans e) nofun, fun _ => h⟩

/-- A byte of the body is stored and folded, whatever becomes of the `!` budget. -/
theorem State.Framed.store (h : o.Framed s c) (hf : s.tbufFull = false) (b : Byte) (seen : Bool) (n : Nat) :
    o.Framed
      (({ s.telStore b with d0res := { s.d0res with bangSeen := seen }, bangCnt := n } : State).requested .rx)
      (c ++ [b]) where
  waits := ⟨h.waits.eng, h.waits.phase, rfl⟩
  buffers := { h.buffers.appendTbuf hf b with }
  cfg := h.cfg
  stxSeen := h.stxSeen
  telegram := by
    rw [← List.append_assoc, ← h.telegram]
    exact h.buffers.appendTbuf_telegram hf b
  lrc := by
    rw [List.foldl_append, ← h.lrc]
    exact if_pos h.stxSeen

/-- The first STX starts the frame. -/
theorem State.BufferInv.stx_framed (hb : s.BufferInv) (h : s.CycleWaits .tel .rx) (hstx : s.d0res.stxSeen = false)
    (hseen : s.d0res.bangSeen = true → s.bangCnt + 1 + rest.length < s.cfg.bangBudget)
    (hfirst : s.d0res.bangSeen = false →
      ∀ pre post, rest = pre ++ chBang :: post → chBang ∉ pre → post.length < s.cfg.bangBudget) :
    ∃ t, takeMove (.respond (.byte chSTX)) s = .next t ∧ s.Framed t [] ∧ t.BangAllows rest := by
  obtain ⟨hunseen, hleft⟩ := firstStxSeedsTheLrc s h hstx
  have hw : ∀ (n : Nat), s.Framed (({ s.telStx with bangCnt := n } : State).requested .rx) [] := fun n =>
    { waits := ⟨h.eng, h.phase, rfl⟩
      buffers := { hb with }
      cfg := rfl
      stxSeen := rfl
      telegram := (List.append_nil _).symm
      lrc := rfl }
  cases hbang : s.d0res.bangSeen with
  | false => exact ⟨_, hunseen hbang, hw s.bangCnt, .of_unseen hbang (hfirst hbang)⟩
  | true =>
    have hlt := hseen hbang
    exact ⟨_, hleft hbang (by omega), hw (s.bangCnt + 1), .of_seen hbang hlt⟩

/-- One byte of the body. -/
theorem State.Framed.byte (h : o.Framed s c) (ha : s.BangAllows (b :: rest)) (hetx : b ≠ chETX)
    (hroom : s.bufLen.toNat ≠ s.cfg.capacity) :
    ∃ t, takeMove (.respond (.byte b)) s = .next t ∧ o.Framed t (c ++ [b]) ∧ t.BangAllows rest := by
  obtain ⟨hseen, hunseen⟩ := ha
  obtain ⟨-, hplain, hfirst, hleft⟩ := telegramBytesAreStoredAndFolded s _ b h.waits hetx (fun _ => h.stxSeen) rfl
  have hstore := h.store (decide_eq_false hroom) b
  cases hbang : s.d0res.bangSeen with
  | true =>
    have hlt := hseen hbang
    rw [List.length_cons] at hlt
    refine ⟨_, hleft hroom hbang (by omega), hstore s.d0res.bangSeen (s.bangCnt + 1), .of_seen hbang ?_⟩
    show s.bangCnt + 1 + rest.length < s.cfg.bangBudget
    omega
  | false =>
    by_cases hb : b = chBang
    · subst hb
      refine ⟨_, hfirst hroom hbang rfl, hstore true 0, .of_seen rfl ?_⟩
      show 0 + rest.length < s.cfg.bangBudget
      rw [Nat.zero_add]
      exact hunseen hbang [] rest rfl List.not_mem_nil
    · refine ⟨_, hplain hroom hbang hb, hstore s.d0res.bangSeen s.bangCnt,
        .of_unseen hbang fun pre post e hpre => ?_⟩
      exact hunseen hbang (b :: pre) post (congrArg (b :: ·) e) (List.not_mem_cons_of_ne_of_not_mem (Ne.symm hb) hpre)

/-- A body that fits, byte by byte. -/
theorem State.Framed.bytes {bs : List Byte} (h : o.Framed s c) (ha : s.BangAllows bs) (hetx : chETX ∉ bs)
    (hfit : s.bufLen.toNat + bs.length ≤ s.cfg.capacity) :
    ∃ t, respondAll (asBytes bs) s = .next t ∧ o.Framed t (c ++ bs) := by
  induction bs generalizing s c with
  | nil => exact ⟨s, rfl, c.append_nil.symm ▸ h⟩
  | cons b bs ih =>
    obtain ⟨hb, hetx⟩ := not_or.1 (List.mem_cons.not.1 hetx)
    rw [List.length_cons] at hfit
    obtain ⟨t, ht, h', ha'⟩ := h.byte ha (Ne.symm hb) (by omega)
    have hlen : t.bufLen.toNat = s.bufLen.toNat + 1 := by
      rw [← State.telegram_length, ← State.telegram_length, h'.telegram, h.telegram]
      simp
      omega
    obtain ⟨u, hu, h''⟩ := ih h' ha' hetx (by rw [h'.cfg, ← h.cfg]; omega)
    exact ⟨u, respondAll_step ht hu, List.append_cons c b bs ▸ h''⟩

/-! ### The block check -/

/-- A byte XORed into the LRC before a fold comes out of it. -/
theorem foldl_lrcStep_xor (bs : List Byte) (d a : Byte) : bs.foldl lrcStep (d ^^^ a) = d ^^^ bs.foldl lrcStep a :=
  List.foldl_assoc (op := fun a b : Byte => a ^^^ b)

/-- Settles O54: the STX, the body and the ETX, one after another. -/
theorem frameHasTheXorAsBlockCheck : Obligations.FrameHasTheXorAsBlockCheck := by
  intro s body h hbuf hstx hetx hfit hseen hfirst
  obtain ⟨t, ht, hframe, ha⟩ := hbuf.stx_framed h hstx hseen hfirst
  have hlen : t.bufLen.toNat = s.bufLen.toNat := by
    rw [← State.telegram_length, ← State.telegram_length, hframe.telegram, List.append_nil]
  obtain ⟨u, hu, hbody⟩ := hframe.bytes ha hetx (by rw [hlen, hframe.cfg]; exact hfit)
  have hend := (etxEndsTheTelegram u hbody.waits).1 hbody.stxSeen
  have hrun : respondAll (asBytes (chSTX :: (body ++ [chETX]))) s = _ :=
    respondAll_step ht ((respondAll_bytes_append hu [chETX]).trans (respondAll_step hend rfl))
  refine ⟨_, hrun, ⟨hbody.waits.eng, rfl, rfl⟩, hbody.telegram, ?_⟩
  have hseed : (0x03 ^^^ 0xFF : Byte) ^^^ s.stxSeed = if s.cfg.lrcStxIncluded then 0x01 else 0x03 := by
    rw [State.stxSeed]
    split <;> rfl
  calc u.lrc ^^^ 0x03 ^^^ 0xFF = (0x03 ^^^ 0xFF) ^^^ body.foldl lrcStep s.stxSeed := by
        rw [hbody.lrc, List.nil_append, BitVec.xor_assoc, BitVec.xor_comm]
    _ = body.foldl lrcStep (if s.cfg.lrcStxIncluded then 0x01 else 0x03) := by rw [← foldl_lrcStep_xor, hseed]

end Sys2Proof.Machine
end

section

/-! An LRC mismatch keeps the telegram (O55): LRC_MISMATCH is the result of a failed verdict only, which is not
there before the block check, and what follows the block check leaves TBUF and BUFLEN. -/

namespace Sys2Proof.Machine

variable {s t : State}

/-! ### Before the block check -/

/-- The block has not ended a command with LRC_MISMATCH. -/
def State.NotMismatched (s : State) : Prop := s.eng = .idle → s.status.res ≠ .lrcMismatch

theorem State.NotMismatched.of_running (he : s.eng = .d0) : s.NotMismatched := fun hi => nomatch hi.symm.trans he

@[simp] theorem State.raiseResult_res (c : ResultCode) (s : State) : (s.raiseResult c).status.res = c := by
  unfold State.raiseResult
  split <;> rfl

theorem State.raiseResult_notMismatched {c : ResultCode} (hc : c ≠ .lrcMismatch) (s : State) :
    (s.raiseResult c).NotMismatched := fun _ => by rwa [State.raiseResult_res]

/-- Whether bytes are left to send or not, the cycle runs on when what follows the sequence does. -/
theorem State.sendFrom_eng {ph : D0Phase} {seq : List Byte} {after : State → State} (ha : (after s).eng = s.eng)
    (k : Nat) : (s.sendFrom ph seq after k).eng = s.eng := by
  unfold State.sendFrom
  split
  · rfl
  · exact ha

theorem State.sendWake_eng (k : Nat) (s : State) : (s.sendWake k).eng = s.eng := by
  unfold State.sendWake
  split <;> rfl

theorem State.afterSetbaud0_eng (s : State) : s.afterSetbaud0.eng = s.eng := by
  unfold State.afterSetbaud0
  split
  · exact s.sendWake_eng 1
  · rfl

theorem State.sendSignoff_eng (k : Nat) (s : State) : (s.sendSignoff k).eng = s.eng := State.sendFrom_eng rfl k

theorem State.afterDetect_eng (m : Mode) (s : State) : (s.afterDetect m).eng = s.eng := by
  unfold State.afterDetect
  split
  · rfl
  split
  · exact State.sendFrom_eng rfl 0
  · rfl

theorem modeDetect_raises {c : List Byte} {code : ResultCode} (h : modeDetect c = .raises code) :
    code ≠ .lrcMismatch := by
  unfold modeDetect at h
  dsimp only at h
  split_ifs at h <;> cases h <;> decide

theorem State.detectMode_notMismatched (he : s.eng = .d0) : s.detectMode.NotMismatched := by
  unfold State.detectMode
  split
  · exact .of_running ((State.afterDetect_eng _ _).trans he)
  · rename_i hd
    exact State.raiseResult_notMismatched (modeDetect_raises hd) s

theorem State.identByte_notMismatched (he : s.eng = .d0) (b : Byte) : (s.identByte b).NotMismatched := by
  rcases s.identByte_cases b with e | e | ⟨u, c, _, rfl | rfl, e⟩ <;> rw [e]
  · exact .of_running he
  · exact State.detectMode_notMismatched he
  · exact State.raiseResult_notMismatched (by decide) u
  · exact State.raiseResult_notMismatched (by decide) u

theorem State.signOff_notMismatched (he : s.eng = .d0) (hv : s.d0res.verdict = .notApplicable) :
    s.signOff.NotMismatched := by
  unfold State.signOff
  split
  · exact .of_running ((s.sendSignoff_eng 0).trans he)
  · exact State.raiseResult_notMismatched (by rw [hv]; nofun) s

theorem State.obtain_notMismatched (he : s.eng = .d0) (hv : s.d0res.verdict = .notApplicable) :
    s.obtain.NotMismatched := by
  unfold State.obtain State.endOfTelegram
  dsimp only
  split
  · exact .of_running he
  · exact State.signOff_notMismatched he hv

theorem State.telBang_notMismatched (he : s.eng = .d0) (hv : s.d0res.verdict = .notApplicable) (b : Byte) :
    (s.telBang b).NotMismatched := by
  rcases s.telBang_cases b with ⟨_, _, e⟩ | e <;> rw [e]
  · exact .of_running he
  · exact State.obtain_notMismatched he hv

theorem State.telByte_notMismatched (he : s.eng = .d0) (hv : s.d0res.verdict = .notApplicable) (b : Byte) :
    (s.telByte b).NotMismatched := by
  rcases s.telByte_cases b with e | e | e | e <;> rw [e]
  · exact State.obtain_notMismatched he hv
  · exact State.telBang_notMismatched (s := s.telStx) he hv b
  · exact State.raiseResult_notMismatched (by decide) s
  · exact State.telBang_notMismatched (s := s.telStore b) he hv b

theorem State.telTimeout_notMismatched (he : s.eng = .d0) (hv : s.d0res.verdict = .notApplicable) :
    s.telTimeout.NotMismatched := by
  unfold State.telTimeout
  split
  · exact State.obtain_notMismatched he hv
  · exact State.raiseResult_notMismatched (by decide) s

/-! ### From the block check on -/

/-- The same telegram in the buffer. -/
def SameTelegram (s t : State) : Prop := t.bufLen = s.bufLen ∧ t.tbuf = s.tbuf

theorem State.terminal_sameTelegram (he : s.eng = .d0) : SameTelegram s s.terminal :=
  ⟨State.terminal_bufLen he, State.raiseResult_tbuf s _⟩

theorem State.sendSignoff_sameTelegram (k : Nat) (s : State) : SameTelegram s (s.sendSignoff k) := by
  unfold State.sendSignoff State.sendFrom
  split <;> exact ⟨rfl, rfl⟩

theorem State.signOff_sameTelegram (he : s.eng = .d0) : SameTelegram s s.signOff := by
  unfold State.signOff
  split
  · exact s.sendSignoff_sameTelegram 0
  · exact State.terminal_sameTelegram he

/-! ### A response, and a step -/

/-- A response to a running cycle reports no mismatch, or keeps the telegram. -/
theorem State.d0Respond_mismatch (he : s.eng = .d0)
    (hv : s.d0Phase.afterCheck = false → s.d0res.verdict = .notApplicable) {a : Response}
    (ht : s.d0Respond a = some t) : t.NotMismatched ∨ SameTelegram s t := by
  unfold State.d0Respond at ht
  split at ht
  · cases ht
    exact .inl (State.raiseResult_notMismatched (by decide) s)
  rcases State.d0Advance_cases ht with ⟨_, _, rfl⟩ | ⟨_, _, rfl⟩ | ⟨_, _, rfl⟩ | ⟨_, _, rfl⟩ | ⟨_, _, rfl⟩ |
    ⟨_, b, _, rfl⟩ | ⟨_, _, rfl⟩ | ⟨_, _, rfl⟩ | ⟨_, _, rfl⟩ | ⟨_, _, rfl⟩ | ⟨_, _, rfl⟩ | ⟨hp, b, _, rfl⟩ |
    ⟨hp, _, rfl⟩ | ⟨_, c, _, rfl⟩ | ⟨_, _, rfl⟩ | ⟨_, _, rfl⟩ | ⟨_, _, rfl⟩
  · exact .inl (.of_running (s.afterSetbaud0_eng.trans he))
  · exact .inl (.of_running ((s.sendWake_eng _).trans he))
  · exact .inl (.of_running he)
  · exact .inl (.of_running ((State.sendFrom_eng rfl _).trans he))
  · exact .inl (.of_running ((State.sendFrom_eng rfl _).trans he))
  · exact .inl (State.identByte_notMismatched he b)
  · exact .inl (State.raiseResult_notMismatched (by decide) s)
  · exact .inl (.of_running he)
  · exact .inl (.of_running ((State.sendFrom_eng rfl _).trans he))
  · exact .inl (.of_running he)
  · exact .inl (.of_running he)
  · exact .inl (State.telByte_notMismatched he (hv (by rw [hp]; rfl)) b)
  · exact .inl (State.telTimeout_notMismatched he (hv (by rw [hp]; rfl)))
  · exact .inr (State.signOff_sameTelegram he)
  · exact .inr (State.signOff_sameTelegram he)
  · exact .inr (s.sendSignoff_sameTelegram _)
  · exact .inr (State.terminal_sameTelegram he)

/-- A host write leaves a running cycle running. -/
theorem hostWrite_eng_of_cycle (hi : s.Inv) (he : s.eng = .d0) {addr : RegAddr} {v : Word}
    (ht : hostWrite addr v s = .next t) : t.eng = .d0 := by
  have hbusy := hi.busy_of_running (by simp [he])
  cases hostWrite_effect ht with
  | refused _ _ e => subst e; exact he
  | command _ _ hb _ => exact absurd (hb.symm.trans hbusy) nofun
  | illegal hb _ => exact absurd (hb.symm.trans hbusy) nofun
  | config e => subst e; exact he
  | budget e => subst e; exact he
  | quiet e => rw [e]; exact he

theorem takeMove_mismatch (hi : s.Inv) (he : s.eng = .d0) {m : Move} (ht : takeMove m s = .next t) :
    t.NotMismatched ∨ SameTelegram s t := by
  cases m with
  | hostWrite addr v => exact .inl (.of_running (hostWrite_eng_of_cycle hi he ht))
  | hostRead addr => cases ht; exact .inl (.of_running he)
  | hostBufRead sp i => cases ht; exact .inl (.of_running he)
  | respond a =>
    obtain ⟨r, _, _, hc⟩ := respond_next ht
    simp only [State.engineConsume, State.answered_eng, he] at hc
    exact State.d0Respond_mismatch (s := s.answered) he (hi.cycle.verdict_before he) hc
  | reset => cases ht; exact .inl fun _ => nofun

/-- Settles O55: the step's move reports no mismatch, or keeps the telegram. -/
theorem lrcMismatchKeepsTheTelegram : Obligations.LrcMismatchKeepsTheTelegram := by
  intro s t hi he ht hidle _ hres
  rcases step_cases ht with ⟨_, rfl⟩ | ⟨m, rest, _, ht⟩
  · exact ⟨rfl, rfl⟩
  · exact (takeMove_mismatch (s := { s with inbox := rest }) (hi.congr rfl) he ht).resolve_left fun h => h hidle hres

end Sys2Proof.Machine
end

section

/-! Results: the numbers software reads (O21), how a command ends (O25), which moves write RES (O26), and the host's
reading of a result (O29). -/

namespace Sys2Proof.Machine

variable {s t : State}

/-! ### The tables' numbers -/

/-- Settles O21: each table is read row by row. -/
theorem codesFollowTheTables : Obligations.CodesFollowTheTables := ⟨rfl, rfl, rfl, rfl, rfl⟩

/-! ### Raising a result -/

theorem State.ended_of_kept {code : ResultCode} (h : code = .ok ∨ code = .lrcMismatch) (s : State) :
    s.ended code =
      { s with status := { s.status with busy := false, res := code }, eng := .idle, pending := none } := by
  rw [State.ended, if_pos h]

theorem State.ended_of_dropped {code : ResultCode} (h : ¬(code = .ok ∨ code = .lrcMismatch)) (s : State) :
    s.ended code =
      { s with
        status := { s.status with busy := false, res := code }, eng := .idle, pending := none, bufLen := 0 } := by
  rw [State.ended, if_neg h]

/-- Settles O25: without a running engine only RES is written; with one the code decides whether BUFLEN is kept. -/
theorem raisingAResultEndsTheCommand : Obligations.RaisingAResultEndsTheCommand := fun s code =>
  ⟨State.raiseResult_of_idle code,
    fun he hk => (State.raiseResult_of_running code he).trans (s.ended_of_kept hk),
    fun he hok hmis => (State.raiseResult_of_running code he).trans (s.ended_of_dropped (not_or.2 ⟨hok, hmis⟩))⟩

/-! ### The host's outcomes -/

theorem toNat_le_of_inRange {lo hi b : Byte} (h : (decide (lo ≤ b) && decide (b ≤ hi)) = true) :
    b.toNat ≤ hi.toNat :=
  BitVec.le_def.1 (of_decide_eq_true (Bool.and_eq_true_iff.1 h).2)

theorem hexValue_lt (b : Byte) : hexValue b < 16 := by
  unfold hexValue
  split_ifs with h9 hF hf
  · have hle : b.toNat ≤ 0x39 := toNat_le_of_inRange h9
    omega
  · have hle : b.toNat ≤ 0x46 := toNat_le_of_inRange hF
    omega
  · have hle : b.toNat ≤ 0x66 := toNat_le_of_inRange hf
    omega
  · decide

/-- Four digits fit the word, so the most significant one counts 4096 (spec/20_memory.md R206). -/
theorem hexWord_toNat (h3 h2 h1 h0 : Byte) :
    (hexWord h3 h2 h1 h0).toNat = 4096 * hexValue h3 + 256 * hexValue h2 + 16 * hexValue h1 + hexValue h0 := by
  have h3lt := hexValue_lt h3
  have h2lt := hexValue_lt h2
  have h1lt := hexValue_lt h1
  have h0lt := hexValue_lt h0
  rw [hexWord, BitVec.toNat_ofNat, Nat.mod_eq_of_lt (by omega)]
  omega

/-- Settles O29: the outcome is read off CLASS and the result code, and the digits' value is that of `hexWord`. -/
theorem outcomesFollowTheTable : Obligations.OutcomesFollowTheTable := by
  refine ⟨fun s h => ?old, fun s h => ?new, fun s h => ?malformed, hexWord_toNat, by decide, by decide, rfl, rfl, rfl, rfl,
    rfl⟩
  case old => rw [State.classifiedOutcome, h]
  case new => rw [State.classifiedOutcome, h]; rfl
  case malformed => rw [State.classifiedOutcome, h]

/-! ### A running command -/

/-- A command runs, and RES still holds the result r of the one before (spec/60_exceptions.md R701). -/
def State.RunsWith (s : State) (r : ResultCode) : Prop := s.eng ≠ .idle ∧ s.status.res = r

/-- The command still runs and RES holds r, or it has ended. -/
def State.RunsOrEnded (s : State) (r : ResultCode) : Prop := s.RunsWith r ∨ s.status.busy = false

variable {r : ResultCode}

theorem State.RunsWith.raiseResult (h : s.RunsWith r) (c : ResultCode) : (s.raiseResult c).RunsOrEnded r := by
  rw [State.raiseResult_of_running c h.1]
  exact .inr rfl

/-! ### A running scan -/

theorem State.RunsWith.failAdd (h : s.RunsWith r) (k : Nat) : (s.failAdd k).RunsOrEnded r := by
  rcases s.failAdd_cases k with ⟨e, _⟩ | ⟨e, _⟩ <;> rw [e]
  · exact .inl h
  · exact State.RunsWith.raiseResult (s := { s with failCnt := sat16 (s.failCnt.toNat + k) }) h _

theorem State.RunsWith.overflow (h : s.RunsWith r) : s.overflow.RunsOrEnded r :=
  State.RunsWith.failAdd
    (s := { s with bufLen := 0, status := { s.status with ovf := true }, frPhase := .hunt, tailN := 0 }) h _

theorem State.RunsWith.discard (h : s.RunsWith r) : s.discard.RunsOrEnded r :=
  State.RunsWith.failAdd (s := { s with bufLen := 0, frPhase := .hunt, tailN := 0 }) h _

theorem State.RunsWith.checkTail (h : s.RunsWith r) : s.checkTail.RunsOrEnded r := by
  rcases s.checkTail_cases with ⟨_, _, _, e⟩ | ⟨_, _, _, e⟩ | ⟨_, _, e⟩ | ⟨_, _, e⟩ | ⟨_, _, e⟩ <;> rw [e]
  · exact h.raiseResult _
  · exact h.discard
  · exact h.raiseResult _
  · exact h.discard
  · exact .inl h

theorem State.RunsWith.frByte (h : s.RunsWith r) (b : Byte) : (s.frByte b).RunsOrEnded r := by
  cases hp : s.frPhase with
  | hunt =>
    rw [State.frByte_hunt hp]
    rcases s.frHunt_cases b with ⟨_, e⟩ | ⟨_, e⟩ <;> rw [e]
    · exact .inl h
    · exact h.failAdd 1
  | body =>
    rw [State.frByte_body hp]
    rcases s.frBody_cases b with ⟨_, e⟩ | ⟨_, _, e⟩ | ⟨_, _, e⟩ | ⟨_, _, _, e⟩ <;> rw [e]
    · exact State.RunsWith.failAdd (s := s.startCandidate b) h _
    · exact h.overflow
    · exact .inl h
    · exact .inl h
  | tail =>
    rw [State.frByte_tail hp]
    rcases s.frTail_cases b with ⟨_, e⟩ | ⟨_, e⟩ <;> rw [e]
    · exact h.overflow
    · exact State.RunsWith.checkTail (s := s.storeTail b) h

theorem State.RunsOrEnded.frContinue (h : s.RunsOrEnded r) : s.frContinue.RunsOrEnded r := by
  unfold State.frContinue
  split <;> exact h

theorem State.RunsWith.frRespond (h : s.RunsWith r) {a : Response} (ht : s.frRespond a = some t) : t.RunsOrEnded r := by
  rcases frRespond_some ht with ⟨_, rfl⟩ | ⟨_, rfl⟩ | ⟨b, _, rfl⟩
  · exact h.raiseResult _
  · exact h.raiseResult _
  · exact (h.frByte b).frContinue

/-! ### A running cycle -/

theorem State.RunsWith.sendFrom {ph : D0Phase} {seq : List Byte} {after : State → State} (h : s.RunsWith r)
    (ha : (after s).RunsWith r) (k : Nat) : (s.sendFrom ph seq after k).RunsWith r := by
  unfold State.sendFrom
  split
  · exact h
  · exact ha

theorem State.RunsWith.sendSignoff (h : s.RunsWith r) (k : Nat) : (s.sendSignoff k).RunsWith r :=
  State.RunsWith.sendFrom (after := State.enterDrain) h h k

theorem State.RunsWith.sendSignon (h : s.RunsWith r) (k : Nat) : (s.sendSignon k).RunsWith r :=
  State.RunsWith.sendFrom (after := State.enterIdent) h h k

theorem State.RunsWith.sendAck (h : s.RunsWith r) (k : Nat) : (s.sendAck k).RunsWith r :=
  State.RunsWith.sendFrom (after := State.enterAckWait) h h k

theorem State.RunsWith.sendWake (h : s.RunsWith r) (k : Nat) : (s.sendWake k).RunsWith r := by
  unfold State.sendWake
  split <;> exact h

theorem State.RunsWith.afterSetbaud0 (h : s.RunsWith r) : s.afterSetbaud0.RunsWith r := by
  unfold State.afterSetbaud0
  split
  · exact h.sendWake 1
  · exact h

theorem State.RunsWith.detectMode (h : s.RunsWith r) : s.detectMode.RunsOrEnded r := by
  unfold State.detectMode
  split
  · rename_i m k _
    have hr : (s.recordMode m k).RunsWith r := h
    rw [State.negotiate_eq]
    unfold State.afterDetect
    split
    · exact .inl hr
    split
    · exact .inl (hr.sendAck 0)
    · exact .inl hr
  · exact h.raiseResult _

theorem State.RunsWith.identByte (h : s.RunsWith r) (b : Byte) : (s.identByte b).RunsOrEnded r := by
  rcases s.identByte_cases b with e | e | ⟨u, c, rfl | rfl, _, e⟩ <;> rw [e]
  · exact .inl h
  · exact State.RunsWith.detectMode (s := s.appendIbuf b) h
  · exact h.raiseResult c
  · exact State.RunsWith.raiseResult (s := s.appendIbuf b) h c

theorem State.RunsWith.signOff (h : s.RunsWith r) : s.signOff.RunsOrEnded r := by
  unfold State.signOff
  split
  · exact .inl (h.sendSignoff 0)
  · exact h.raiseResult _

theorem State.RunsWith.obtain (h : s.RunsWith r) : s.obtain.RunsOrEnded r := by
  unfold State.obtain State.endOfTelegram
  dsimp only
  split
  · exact .inl h
  · exact State.RunsWith.signOff h

theorem State.RunsWith.telBang (h : s.RunsWith r) (b : Byte) : (s.telBang b).RunsOrEnded r := by
  rcases s.telBang_cases b with ⟨_, _, e⟩ | e <;> rw [e]
  · exact .inl h
  · exact State.RunsWith.obtain (s := { s with bangCnt := s.bangCnt + 1 }) h

theorem State.RunsWith.telByte (h : s.RunsWith r) (b : Byte) : (s.telByte b).RunsOrEnded r := by
  rcases s.telByte_cases b with e | e | e | e <;> rw [e]
  · exact State.RunsWith.obtain h
  · exact State.RunsWith.telBang (s := s.telStx) h b
  · exact h.raiseResult _
  · exact State.RunsWith.telBang (s := s.telStore b) h b

theorem State.RunsWith.telTimeout (h : s.RunsWith r) : s.telTimeout.RunsOrEnded r := by
  unfold State.telTimeout
  split
  · exact h.obtain
  · exact h.raiseResult _

theorem State.RunsWith.d0Respond (h : s.RunsWith r) {a : Response} (ht : s.d0Respond a = some t) : t.RunsOrEnded r := by
  unfold State.d0Respond at ht
  split at ht
  · cases ht
    exact h.raiseResult _
  rcases State.d0Advance_cases ht with ⟨_, _, rfl⟩ | ⟨_, _, rfl⟩ | ⟨_, _, rfl⟩ | ⟨_, _, rfl⟩ | ⟨_, _, rfl⟩ |
    ⟨_, b, _, rfl⟩ | ⟨_, _, rfl⟩ | ⟨_, _, rfl⟩ | ⟨_, _, rfl⟩ | ⟨_, _, rfl⟩ | ⟨_, _, rfl⟩ | ⟨_, b, _, rfl⟩ |
    ⟨_, _, rfl⟩ | ⟨_, c, _, rfl⟩ | ⟨_, _, rfl⟩ | ⟨_, _, rfl⟩ | ⟨_, _, rfl⟩
  · exact .inl h.afterSetbaud0
  · exact .inl (h.sendWake _)
  · exact .inl h
  · exact .inl (h.sendSignon _)
  · exact .inl (h.sendSignon _)
  · exact h.identByte b
  · exact h.raiseResult _
  · exact .inl h
  · exact .inl (h.sendAck _)
  · exact .inl h
  · exact .inl h
  · exact h.telByte b
  · exact h.telTimeout
  · exact State.RunsWith.signOff h
  · exact State.RunsWith.signOff h
  · exact .inl (h.sendSignoff _)
  · exact h.raiseResult _

/-! ### Which moves write RES -/

/-- A response that is consumed finds a running engine, and changes RES only by ending its command. -/
theorem respond_res {a : Response} (h : s.respond a = .next t) :
    s.eng ≠ .idle ∧ (t.status.res = s.status.res ∨ t.status.busy = false) := by
  obtain ⟨_, _, _, hc⟩ := respond_next h
  have hrun (he : s.eng ≠ .idle) : s.answered.RunsWith s.status.res := ⟨he, rfl⟩
  cases he : s.eng with
  | idle => simp [State.engineConsume, he] at hc
  | fr =>
    simp only [State.engineConsume, State.answered_eng, he] at hc
    exact ⟨nofun, ((hrun (by simp [he])).frRespond hc).imp_left And.right⟩
  | d0 =>
    simp only [State.engineConsume, State.answered_eng, he] at hc
    exact ⟨nofun, ((hrun (by simp [he])).d0Respond hc).imp_left And.right⟩

/-- A command accepted while BUSY = 0 starts an engine and keeps RES, or ends at once. -/
theorem commandRule_res (i : Instr) (h : s.status.busy = false) :
    (commandRule i s).status.res = s.status.res ∨ (commandRule i s).status.busy = false := by
  rcases commandRule_busy i s h with hb | ⟨_, rfl | rfl⟩
  · exact .inr hb
  · exact .inl rfl
  · exact .inl rfl

/-- A write to the register port changes RES only as a command word, accepted while BUSY = 0, that ends at once. -/
theorem hostWrite_res {addr : RegAddr} {v : Word} (h : hostWrite addr v s = .next t)
    (hne : t.status.res ≠ s.status.res) : s.status.busy = false ∧ t.status.busy = false ∧ addr = 0x00 := by
  cases hostWrite_effect h with
  | refused _ _ e => subst e; exact absurd rfl hne
  | command i _ hb e => subst e; exact ⟨hb, (commandRule_res (s := s.setRej false) i hb).resolve_left hne, rfl⟩
  | illegal hb e => subst e; exact ⟨hb, State.raiseResult_not_busy _ _ hb, rfl⟩
  | config e => subst e; exact absurd rfl hne
  | budget e => subst e; exact absurd rfl hne
  | quiet e => rw [e] at hne; exact absurd rfl hne

/-- Settles O26: host writes and responses as above, and a read changes no register. -/
theorem resIsWrittenOnlyWhenACommandEnds : Obligations.ResIsWrittenOnlyWhenACommandEnds := by
  intro s t m hp h hne
  cases m with
  | hostWrite addr v =>
    obtain ⟨hb, hb', rfl⟩ := hostWrite_res h hne
    exact .inr (.inl ⟨hb, hb', v, rfl⟩)
  | hostRead addr => cases h; exact absurd rfl hne
  | hostBufRead sp i => cases h; exact absurd rfl hne
  | respond a =>
    obtain ⟨he, hr⟩ := respond_res h
    exact .inr (.inr ⟨hp.busy_iff.2 he, hr.resolve_left hne, a, rfl⟩)
  | reset => exact .inl rfl

end Sys2Proof.Machine
end

section

/-! A scan that ends with OK leaves a telegram with one of the two tails, so CLASSIFY gives OLD or NEW (O40). -/

namespace Sys2Proof.Machine

variable {s t : State}

/-! ### The telegram of a complete chunk -/

/-- The `!` stays before the chunk when a byte joins it. -/
theorem State.Scanning.storeTail_bang (h : s.Scanning) (hp : s.frPhase = .tail) (hf : s.tbufFull = false) (b : Byte) :
    (s.storeTail b).tailN + 2 ≤ (s.storeTail b).bufLen.toNat ∧
      (s.storeTail b).tbuf.read ((s.storeTail b).bufLen.toNat - (s.storeTail b).tailN - 1) = chBang := by
  obtain ⟨-, hroom⟩ := h.phases.tail_room h.eng hp
  have hlen : (s.storeTail b).bufLen.toNat = s.bufLen.toNat + 1 := h.sound.buffers.appendTbuf_length hf b
  have hn : (s.storeTail b).tailN = s.tailN + 1 := rfl
  have hi : (s.storeTail b).bufLen.toNat - (s.storeTail b).tailN - 1 = s.bufLen.toNat - s.tailN - 1 := by omega
  refine ⟨by omega, ?_⟩
  rw [hi]
  exact (s.appendTbuf_read_lt b (by omega)).trans (h.phases.tail_bang h.eng hp)

/-- With n bytes in the chunk, its byte j is the one n - j before the telegram's end. -/
theorem State.tailByte_eq_read {n j k : Nat} (hn : s.tailN = n) (hle : n ≤ s.bufLen.toNat) (hk : k + j = n) :
    s.tailByte j = s.tbuf.read (s.bufLen.toNat - k) := by
  rw [State.tailByte, hn]
  congr 1
  omega

theorem State.hasOldTail_of_chunk (hlen : s.tailN + 2 ≤ s.bufLen.toNat)
    (hbang : s.tbuf.read (s.bufLen.toNat - s.tailN - 1) = chBang) (h2 : s.tailN = 2) (h0 : s.tailByte 0 = chCR)
    (h1 : s.tailByte 1 = chLF) : hasOldTail s.telegram = true := by
  have hle : 2 ≤ s.bufLen.toNat := by omega
  rw [State.tailByte_eq_read (k := 2) h2 hle rfl] at h0
  rw [State.tailByte_eq_read (k := 1) h2 hle rfl] at h1
  rw [h2, Nat.sub_sub] at hbang
  exact s.hasOldTail_telegram_iff.2 ⟨by omega, hbang, h0, h1⟩

theorem State.hasNewTail_of_chunk (hlen : s.tailN + 2 ≤ s.bufLen.toNat)
    (hbang : s.tbuf.read (s.bufLen.toNat - s.tailN - 1) = chBang) (h6 : s.tailN = 6) (hok : s.newTailOk = true) :
    hasNewTail s.telegram = true := by
  have hle : 6 ≤ s.bufLen.toNat := by omega
  rw [State.newTailOk_iff, State.tailByte_eq_read (k := 6) h6 hle rfl, State.tailByte_eq_read (k := 5) h6 hle rfl,
    State.tailByte_eq_read (k := 4) h6 hle rfl, State.tailByte_eq_read (k := 3) h6 hle rfl,
    State.tailByte_eq_read (k := 2) h6 hle rfl, State.tailByte_eq_read (k := 1) h6 hle rfl] at hok
  rw [h6, Nat.sub_sub] at hbang
  exact s.hasNewTail_telegram_iff.2 ⟨by omega, hbang, hok⟩

/-! ### The telegram of a scan that ended -/

/-- If the block is idle with the result OK, its telegram has one of the two tails (spec/40_checksum.md R412). -/
def State.OkHasTail (s : State) : Prop :=
  s.eng = .idle → s.status.res = .ok → hasOldTail s.telegram = true ∨ hasNewTail s.telegram = true

theorem State.OkHasTail.of_scan (he : s.eng = .fr) : s.OkHasTail := fun hi => nomatch hi.symm.trans he

theorem State.failAdd_okHasTail (he : s.eng = .fr) (k : Nat) : (s.failAdd k).OkHasTail := by
  rcases s.failAdd_cases k with ⟨e, _⟩ | ⟨e, _⟩ <;> rw [e]
  · exact .of_scan he
  · intro _ hres
    rw [State.raiseResult_res] at hres
    cases hres

theorem State.overflow_okHasTail (he : s.eng = .fr) : s.overflow.OkHasTail :=
  State.failAdd_okHasTail
    (s := { s with bufLen := 0, status := { s.status with ovf := true }, frPhase := .hunt, tailN := 0 }) he _

theorem State.discard_okHasTail (he : s.eng = .fr) : s.discard.OkHasTail :=
  State.failAdd_okHasTail (s := { s with bufLen := 0, frPhase := .hunt, tailN := 0 }) he _

theorem State.raiseOk_telegram (he : s.eng = .fr) : (s.raiseResult .ok).telegram = s.telegram := by
  rw [State.raiseResult_of_running _ (by simp [he]), State.ended_of_kept (.inl rfl)]
  rfl

/-- A scan ends with OK only at a complete chunk of one of the two shapes. -/
theorem State.checkTail_okHasTail (he : s.eng = .fr) (hlen : s.tailN + 2 ≤ s.bufLen.toNat)
    (hbang : s.tbuf.read (s.bufLen.toNat - s.tailN - 1) = chBang) : s.checkTail.OkHasTail := by
  rcases s.checkTail_cases with ⟨h2, h0, h1, e⟩ | ⟨_, _, _, e⟩ | ⟨h6, hok, e⟩ | ⟨_, _, e⟩ | ⟨_, _, e⟩ <;> rw [e]
  · intro _ _
    rw [State.raiseOk_telegram he]
    exact .inl (State.hasOldTail_of_chunk hlen hbang h2 h0 h1)
  · exact State.discard_okHasTail he
  · intro _ _
    rw [State.raiseOk_telegram he]
    exact .inr (State.hasNewTail_of_chunk hlen hbang h6 hok)
  · exact State.discard_okHasTail he
  · exact .of_scan he

theorem State.Scanning.frByte_okHasTail (h : s.Scanning) (b : Byte) : (s.frByte b).OkHasTail := by
  have he := h.eng
  cases hp : s.frPhase with
  | hunt =>
    rw [State.frByte_hunt hp]
    rcases s.frHunt_cases b with ⟨_, e⟩ | ⟨_, e⟩ <;> rw [e]
    · exact .of_scan he
    · exact State.failAdd_okHasTail he 1
  | body =>
    rw [State.frByte_body hp]
    rcases s.frBody_cases b with ⟨_, e⟩ | ⟨_, _, e⟩ | ⟨_, _, e⟩ | ⟨_, _, _, e⟩ <;> rw [e]
    · exact State.failAdd_okHasTail (s := s.startCandidate b) he _
    · exact State.overflow_okHasTail he
    · exact .of_scan he
    · exact .of_scan he
  | tail =>
    rw [State.frByte_tail hp]
    rcases s.frTail_cases b with ⟨_, e⟩ | ⟨hf, e⟩ <;> rw [e]
    · exact State.overflow_okHasTail he
    · obtain ⟨hlen, hbang⟩ := h.storeTail_bang hp hf b
      exact State.checkTail_okHasTail he hlen hbang

theorem State.OkHasTail.frContinue (h : s.OkHasTail) : s.frContinue.OkHasTail := by
  unfold State.frContinue
  split
  · exact .of_scan ‹_›
  · exact h

/-! ### CLASSIFY -/

theorem exec_classify_of_tail (hb : s.status.busy = false)
    (h : hasOldTail s.telegram = true ∨ hasNewTail s.telegram = true) :
    ∃ u, exec .classify s = .next u ∧ (u.cls = .old ∨ u.cls = .new) := by
  rcases h with h | h
  · exact ⟨_, exec_classify_of_idle hb (classifyTail_of_old h), .inl rfl⟩
  · exact ⟨_, exec_classify_of_idle hb (classifyTail_of_new h), .inr rfl⟩

/-- Settles O40: the accepted telegram has one of the two tails, and the block that accepted it is idle. -/
theorem acceptedTelegramIsNeverMalformed : Obligations.AcceptedTelegramIsNeverMalformed := by
  intro s t b hi he ht hidle hok
  have hb : t.status.busy = false := by
    simpa [hidle] using (hi.takeMove ht).port.busy_iff
  obtain ⟨r, _, _, hc⟩ := respond_next ht
  simp only [State.engineConsume, State.answered_eng, he] at hc
  cases hc
  exact exec_classify_of_tail hb (((hi.scanning he).frByte_okHasTail b).frContinue hidle hok)

end Sys2Proof.Machine
end

section

/-! Reset: the values it leaves (O24), and that they meet the invariant (O57). -/

namespace Sys2Proof.Machine

/-! ### The reset table -/

/-- CRCC's final XOR is the only parameter a register read depends on, so every other address reads the same after a
reset as in the fixed reset state. -/
theorem State.resetBlock_readReg (s : State) {a : RegAddr} (h : a ≠ 0x05) :
    s.resetBlock.readReg a = State.reset.readReg a := by
  unfold State.readReg
  split
  case h_5 h5 => exact absurd (BitVec.eq_of_toNat_eq h5) h
  all_goals rfl

theorem State.reset_resetBlock : State.reset.resetBlock = State.reset := rfl

/-- Settles O24: the engine state is that of `State.reset`, and each register reads its value there. -/
theorem resetSetsEveryRegister : Obligations.ResetSetsEveryRegister := by
  refine ⟨fun s => ⟨s.resetBlock, rfl, ?_⟩, congrArg _ State.reset_resetBlock⟩
  have hreg {a : RegAddr} {v : Word} (h : a ≠ 0x05 ∧ State.reset.readReg a = v) : s.resetBlock.readReg a = v :=
    (s.resetBlock_readReg h.1).trans h.2
  exact ⟨hreg (by decide), hreg (by decide), hreg (by decide), hreg (by decide), rfl, hreg (by decide),
    hreg (by decide), hreg (by decide), hreg (by decide), hreg (by decide), hreg (by decide), hreg (by decide),
    hreg (by decide), hreg (by decide), rfl, rfl, rfl, rfl, rfl, rfl, rfl, rfl, rfl, rfl, rfl, rfl, rfl, rfl⟩

/-! ### The reset state is sound -/

theorem State.reset_bufferInv : State.reset.BufferInv where
  params := by decide
  bufLen_le := Nat.zero_le _
  idLen_le := Nat.zero_le _
  tbuf_wf := rfl
  ibuf_wf := rfl
  tbuf_inside := nofun
  ibuf_inside := nofun

theorem State.reset_cycleRanges : State.reset.CycleRanges where
  seqK_le := Nat.zero_le _
  bangCnt_le := Nat.zero_le _
  rateCode_le := Nat.zero_le _
  baud_ne h := absurd rfl h
  baud_none _ := rfl
  mode_ne_d := nofun

theorem State.reset_resting : State.reset.Resting where
  sound := ⟨State.reset_bufferInv, Nat.zero_le _, State.reset_cycleRanges, fun _ => rfl⟩
  eng := rfl
  busy := rfl
  pending := rfl

/-- Settles O57: the reset block rests in a sound state, and its history is empty. -/
theorem resetStateIsSound : Obligations.ResetStateIsSound :=
  ⟨State.reset_resting.inv, .of_not_cycle nofun nofun⟩

end Sys2Proof.Machine
end
